-- ==== Sys2Proof/Word.lean ====
section
/-! DEFINITION. The word types of the device (spec/00, R11 to R13) and their plainest arithmetic. -/

namespace Sys2Proof

/-- A byte: 8 bits (R13). -/
abbrev Byte := BitVec 8
/-- A half-word: 16 bits (R13). -/
abbrev Half := BitVec 16
/-- A word: 32 bits (R13). -/
abbrev Word := BitVec 32
/-- A double word: 64 bits (R13). -/
abbrev DWord := BitVec 64

/-- Sequence numbers of several interfaces count modulo 4,096 (R413, R454). -/
abbrev Seq12 := BitVec 12

/-- A 1-bit test as a Bool. -/
def bit {w : Nat} (x : BitVec w) (i : Nat) : Bool := x.getLsbD i

/-- A Bool as the number 0 or 1. -/
def b2n (b : Bool) : Nat := if b then 1 else 0

end Sys2Proof
end

