-- ==== Sys2Proof/Config.lean ====
section
/-! DEFINITION. What an implementation fixes and what the spec leaves open. The opaque constants are
FREE VALUES: they have no body, so no proof can see which value they give, and a statement about one
holds for every value. The log entry of each is named beside it. -/

namespace Sys2Proof.Config

/-- Byte `o` of the `n`-th undefined region (R9: any value of the width; log 6). -/
opaque freeByte (n o : Nat) : Byte
/-- The `n`-th undefined word (R9; log 6). -/
opaque freeWord (n : Nat) : Word
/-- The SEAL code of R272: over descriptor bytes 0x00-0x7B, the partition and an owner table's
entries, under a key that is drawn anew at each reset. The spec states neither function nor key (log 7). -/
opaque sealCode (epoch : Nat) (bytes : List Byte) (part : Nat) : Word
/-- Word `addr` of the part of the clamp readout that is not architectural (region 0xE0, R682; log 8): a function of the state of the
routers, which only the clamp readout captures (R30). -/
opaque nonArchWord (routers : List Nat) (addr : Nat) : Word
/-- The check bits that a RAW clamp readout gives for a word: the SECDED code is not given (R682; log 8). -/
opaque checkBits (width : Nat) (w : Nat) : Byte
/-- The boundary-register value that a sample captures: the order of the cells within their groups
is not given (R672; log 8). -/
opaque boundarySample (n : Nat) : Nat
/-- Whether the ECDSA P-384 signature of a boot image verifies under the key of the boot ROM
(R660: the key is not given; log 9). -/
opaque signatureOk (image : List Byte) : Bool
/-- The version of the ROM firmware (R660, R674: no number is given; log 9). -/
opaque romVersion : Word

/-- Benches of the array (R28). -/
def benches : Nat := 128
/-- Boundary-register cells (R672). -/
def boundaryCells : Nat := 2837

end Sys2Proof.Config
end

