-- ==== Sys2Proof/Syntax.lean ====
section
/-! DEFINITION. The commands of the block: one constructor per row of the table of operations and events
(spec/opcode_table.json, spec/95). An instruction row names the bench that issues the instruction
as its next one and carries the instruction's fields; an event row carries what arrives with the
event. Fields keep the width of their encoding, so a field may hold a reserved or illegal value. -/

namespace Sys2Proof

/-- A bench number (R28). -/
abbrev Bench7 := BitVec 7
/-- A general register number (R90). -/
abbrev Reg := BitVec 5
/-- A board number (R188). -/
abbrev Board4 := BitVec 4
/-- A Molarga port number (R405). -/
abbrev Port4 := BitVec 4
/-- A partition number (R513). -/
abbrev Part3 := BitVec 3
/-- An HPP module number (R447). -/
abbrev Module2 := BitVec 2
/-- A column number (R28). -/
abbrev Col4 := BitVec 4
/-- A device identifier (R407). -/
abbrev DevId := BitVec 12

/-- What an operation in flight occupies: one of the three parts of the Marquetry unit (R169, R175), or drawer port A, where BLD,
BST, ACC, ACCI and DRAIN move their rows (R206, R208; an operation of port A completes by the same event: DESIGN CHOICE, log 115). -/
inductive MUnit where
  | fabric | transpose | solver | portA
  deriving DecidableEq, Repr

/-- The three classes of port B cycles (R55, R285). -/
inductive SplitClass where
  | hostRead | hostWrite | remote
  deriving DecidableEq, Repr

/-- The four meshes of the NoC (R375). -/
inductive NocMesh where
  | req | rsp | snp | dat
  deriving DecidableEq, Repr

/-- The memories that carry ECC and a scrubber, by the site codes of R642. -/
inductive MemSite where
  | drawer (b : Bench7) | idrawer (b : Bench7) | boardFile (b : Bench7) | slots (b : Bench7)
  | veneerData (slice : BitVec 4) | veneerTags (slice : BitVec 4) | mailbox (b : Bench7) | context (b : Bench7)
  deriving DecidableEq, Repr

/-- A NoC link: its mesh, the router it leaves (x + 16 y) and its direction 0 E, 1 W, 2 N, 3 S (R642). -/
structure NocLink where
  mesh   : NocMesh
  router : BitVec 7
  dir    : BitVec 2
  deriving DecidableEq, Repr

/-- A failure that a plane run finds: a bench, or the Veneer cache (R365, R642 PLANE_FAIL). -/
structure PlaneFail where
  /-- The failing bench, or none for the Veneer cache. -/
  bench : Option Bench7
  /-- The Veneer slice that failed, when `bench` is none (R665). -/
  slice : BitVec 4
  /-- The MEM bit of the memory that failed, 20 to 23 (R362). -/
  mem   : BitVec 5
  addr  : Word
  deriving DecidableEq, Repr

/-- The sources of tamper, in the order of their codes 1 to 4 (R643). The voltage, clock and
temperature sources are single; a GPIO source names its pin. -/
inductive TamperSrc where
  | voltage | clock | temperature | gpio (pin : BitVec 3)
  deriving DecidableEq, Repr

/-- What a STROKE marker carries (R42, R411), with its arrival: the time at which it arrived less that of this device's nearest
boundary, in units of 0.05 ns (R44). The path's latency has not been taken off. -/
structure Marker where
  count      : DWord
  rank       : BitVec 12
  len        : BitVec 8
  masterRank : BitVec 12
  masterId   : DevId
  arrival    : Int
  deriving DecidableEq, Repr

/-- The header fields of a Molarga flit that the receiver uses (R412). -/
structure FlitHdr where
  vc     : BitVec 2
  cred   : Bool
  poison : Bool
  seq    : BitVec 12
  ackseq : BitVec 12
  nak    : Bool
  crvc   : BitVec 2
  crcnt  : BitVec 8
  dest   : DevId
  src    : DevId
  slot   : BitVec 6
  part   : Part3
  deriving DecidableEq, Repr

/-- The four words of a message header (R417). -/
structure MsgHdr where
  w0 : Word
  w1 : Word
  w2 : Word
  w3 : Word
  deriving DecidableEq, Repr

/-- What a TRAIN exchange tells of the peer (R425): its identifier, its port, its LEN, its dimension
sizes (SIZE minus 1, 3 bits each, dimension 0 lowest), and its MAXRATE for the port (R423). -/
structure TrainInfo where
  peerId   : DevId
  peerPort : Port4
  len      : BitVec 5
  sizes    : BitVec 12
  maxRate  : BitVec 2
  deriving DecidableEq, Repr

/-- The control fields of an HPP frame that carries no header, or fails its CRC (R450). -/
structure HppCtl where
  crcOk  : Bool
  ackseq : BitVec 12
  nak    : Bool
  credit : BitVec 7
  deriving DecidableEq, Repr

/-- The commands: one constructor per row of the table, in the table's order. -/
inductive Instr where
  /-- ADD (R149): Register ALU add, modulo 2^32. -/
  | add (b : Bench7) (rd ra rb : Reg)
  /-- SUB (R149): Register ALU subtract, modulo 2^32. -/
  | sub (b : Bench7) (rd ra rb : Reg)
  /-- AND (R149): Bitwise AND of two registers. -/
  | and_ (b : Bench7) (rd ra rb : Reg)
  /-- ANDN (R149): Bitwise AND with the complement of the second register. -/
  | andn (b : Bench7) (rd ra rb : Reg)
  /-- OR (R149): Bitwise OR of two registers. -/
  | or_ (b : Bench7) (rd ra rb : Reg)
  /-- XOR (R149): Bitwise XOR of two registers. -/
  | xor (b : Bench7) (rd ra rb : Reg)
  /-- SLL (R149): Shift left by a register amount. -/
  | sll (b : Bench7) (rd ra rb : Reg)
  /-- SRL (R149): Logical shift right by a register amount. -/
  | srl (b : Bench7) (rd ra rb : Reg)
  /-- SRA (R149): Arithmetic shift right by a register amount. -/
  | sra (b : Bench7) (rd ra rb : Reg)
  /-- SLT (R149): Set on signed less-than. -/
  | slt (b : Bench7) (rd ra rb : Reg)
  /-- SLTU (R149): Set on unsigned less-than. -/
  | sltu (b : Bench7) (rd ra rb : Reg)
  /-- MIN (R149): Signed minimum. -/
  | min (b : Bench7) (rd ra rb : Reg)
  /-- MAX (R149): Signed maximum. -/
  | max (b : Bench7) (rd ra rb : Reg)
  /-- MINU (R149): Unsigned minimum. -/
  | minu (b : Bench7) (rd ra rb : Reg)
  /-- MAXU (R149): Unsigned maximum. -/
  | maxu (b : Bench7) (rd ra rb : Reg)
  /-- CLZ (R149): Count leading zeros. -/
  | clz (b : Bench7) (rd ra : Reg)
  /-- POPC (R149): Count set bits. -/
  | popc (b : Bench7) (rd ra : Reg)
  /-- SLLI (R149): Shift left by an immediate. -/
  | slli (b : Bench7) (rd ra : Reg) (n : BitVec 5)
  /-- SRLI (R149): Logical shift right by an immediate. -/
  | srli (b : Bench7) (rd ra : Reg) (n : BitVec 5)
  /-- SRAI (R149): Arithmetic shift right by an immediate. -/
  | srai (b : Bench7) (rd ra : Reg) (n : BitVec 5)
  /-- ADDI (R150): Add a sign-extended immediate. -/
  | addi (b : Bench7) (rd ra : Reg) (imm : BitVec 16)
  /-- ANDI (R150): AND with a zero-extended immediate. -/
  | andi (b : Bench7) (rd ra : Reg) (imm : BitVec 16)
  /-- ORI (R150): OR with a zero-extended immediate. -/
  | ori (b : Bench7) (rd ra : Reg) (imm : BitVec 16)
  /-- XORI (R150): XOR with a zero-extended immediate. -/
  | xori (b : Bench7) (rd ra : Reg) (imm : BitVec 16)
  /-- SLTI (R150): Signed compare with an immediate. -/
  | slti (b : Bench7) (rd ra : Reg) (imm : BitVec 16)
  /-- SLTIU (R150): Unsigned compare with a sign-extended immediate. -/
  | sltiu (b : Bench7) (rd ra : Reg) (imm : BitVec 16)
  /-- LUI (R150): Load an immediate into the upper half. -/
  | lui (b : Bench7) (rd : Reg) (imm : BitVec 16)
  /-- LB (R151): Load a sign-extended byte. -/
  | lb (b : Bench7) (rd ra : Reg) (imm : BitVec 16)
  /-- LBU (R151): Load a zero-extended byte. -/
  | lbu (b : Bench7) (rd ra : Reg) (imm : BitVec 16)
  /-- LH (R151): Load a sign-extended half-word, rotating when unaligned in the drawer with UROT. -/
  | lh (b : Bench7) (rd ra : Reg) (imm : BitVec 16)
  /-- LHU (R151): Load a zero-extended half-word. -/
  | lhu (b : Bench7) (rd ra : Reg) (imm : BitVec 16)
  /-- LW (R151): Load a word from any permitted region. -/
  | lw (b : Bench7) (rd ra : Reg) (imm : BitVec 16)
  /-- SB (R151): Store a byte. -/
  | sb (b : Bench7) (rs ra : Reg) (imm : BitVec 16)
  /-- SH (R151): Store a half-word. -/
  | sh (b : Bench7) (rs ra : Reg) (imm : BitVec 16)
  /-- SW (R151): Store a word, including to the instruction drawer patch buffer and control windows. -/
  | sw (b : Bench7) (rs ra : Reg) (imm : BitVec 16)
  /-- BEQ (R152): Branch if equal, with a delay slot. -/
  | beq (b : Bench7) (ra rb : Reg) (off : BitVec 16)
  /-- BNE (R152): Branch if not equal. -/
  | bne (b : Bench7) (ra rb : Reg) (off : BitVec 16)
  /-- BLT (R152): Branch if signed less. -/
  | blt (b : Bench7) (ra rb : Reg) (off : BitVec 16)
  /-- BGE (R152): Branch if signed greater or equal. -/
  | bge (b : Bench7) (ra rb : Reg) (off : BitVec 16)
  /-- BLTU (R152): Branch if unsigned less. -/
  | bltu (b : Bench7) (ra rb : Reg) (off : BitVec 16)
  /-- BGEU (R152): Branch if unsigned greater or equal. -/
  | bgeu (b : Bench7) (ra rb : Reg) (off : BitVec 16)
  /-- J (R153): Relative jump. -/
  | j (b : Bench7) (off : BitVec 26)
  /-- JAL (R153): Relative jump and link into g31. -/
  | jal (b : Bench7) (off : BitVec 26)
  /-- JR (R153): Register-indirect jump. -/
  | jr (b : Bench7) (ra : Reg)
  /-- JALR (R153): Register-indirect jump and link. -/
  | jalr (b : Bench7) (ra : Reg)
  /-- LOOP (R108): Set up a hardware loop level with a register count. -/
  | loop (b : Bench7) (lvl : BitVec 2) (rc : Reg) (off : BitVec 16)
  /-- LOOPI (R155): Set up a hardware loop level with an immediate count. -/
  | loopi (b : Bench7) (lvl : BitVec 2) (cnt : BitVec 12) (off : BitVec 12)
  /-- MFJ (R156): Read a control register. -/
  | mfj (b : Bench7) (rd : Reg) (idx : BitVec 5)
  /-- MTJ (R157): Write a control register. -/
  | mtj (b : Bench7) (idx : BitVec 5) (ra : Reg)
  /-- SETMODE (R101): Change mode after one shadow instruction. -/
  | setmode (b : Bench7) (m : BitVec 2)
  /-- ISYNC (R124): Write the patch buffer to the instruction drawer and refetch. -/
  | isync (b : Bench7)
  /-- WSTROKE (R59): End the stroke body; wait for the boundary in a real-time partition. -/
  | wstroke (b : Bench7)
  /-- YIELD (R115): Offer a task switch to the next READY task. -/
  | yield (b : Bench7)
  /-- TEND (R118): End the task, release its boards and empty its context. -/
  | tend (b : Bench7)
  /-- TRAP (R131): Raise a system call. -/
  | trap (b : Bench7) (n : BitVec 8)
  /-- ERET (R128): Return from a handler. -/
  | eret (b : Bench7)
  /-- SHAPE (R160): Set a board's shape. -/
  | shape (b : Bench7) (bd : Board4) (rows rbytes : BitVec 6) (ew : BitVec 2)
  /-- BLD (R161): Load a board from the drawer, optionally transposed. -/
  | bld (b : Bench7) (bd : Board4) (t : Bool) (ra rb : Reg)
  /-- BST (R161): Store a board to the drawer, optionally transposed. -/
  | bst (b : Bench7) (bs : Board4) (t : Bool) (ra rb : Reg)
  /-- ACCZ (R164): Zero the glue-up, fix its class and set GLU. -/
  | accz (b : Bench7) (ty : BitVec 3)
  /-- ACC (R166): Add a board's rows into glue-up rows. -/
  | acc (b : Bench7) (bs : Board4) (ty : BitVec 3) (row0 : BitVec 6)
  /-- ACCI (R167): Add board rows into indexed glue-up rows. -/
  | acci (b : Bench7) (bs bi : Board4) (ty : BitVec 3)
  /-- RELEASE_GU (R164): Release the glue-up. -/
  | releaseGu (b : Bench7)
  /-- RELEASE_BS (R194): Release a board. -/
  | releaseBs (b : Bench7) (bs : Board4)
  /-- DRAIN (R168): Write glue-up rows to the drawer with format conversion. -/
  | drain (b : Bench7) (fmt : BitVec 2) (t : Bool) (ra rb : Reg) (row0 nrows : BitVec 6)
  /-- PERM (R172): Apply a pattern slot through the Beneš fabric. -/
  | perm (b : Bench7) (bd bs : Board4) (p : BitVec 4)
  /-- TRN (R173): Transpose a board. -/
  | trn (b : Bench7) (bd bs : Board4)
  /-- BTRN (R173): Bit-transpose 8 x 8 blocks of a board. -/
  | btrn (b : Bench7) (bd bs : Board4)
  /-- KSI (R170): Solve a pattern from an index vector. -/
  | ksi (b : Bench7) (p : BitVec 4) (bs : Board4)
  /-- KSR (R171): Solve a rank pattern from keys. -/
  | ksr (b : Bench7) (p : BitVec 4) (bs : Board4) (kt : BitVec 2) (dir : Bool)
  /-- KTK (R171): Solve a top-k pattern from keys. -/
  | ktk (b : Bench7) (p : BitVec 4) (bs : Board4) (kt : BitVec 2) (dir : Bool) (k : BitVec 8)
  /-- PSV (R174): Save a pattern slot image to the drawer. -/
  | psv (b : Bench7) (ra : Reg) (p : BitVec 4)
  /-- PRS (R174): Restore a pattern slot from the drawer. -/
  | prs (b : Bench7) (p : BitVec 4) (ra : Reg)
  /-- SGO (R179): Start a stream and allocate its tag. -/
  | sgo (b : Bench7) (rd ra : Reg)
  /-- TWAIT (R178): Wait for a tag and return its status. -/
  | twait (b : Bench7) (rd ra : Reg)
  /-- TTEST (R178): Return a tag's status without waiting. -/
  | ttest (b : Bench7) (rd ra : Reg)
  /-- RRES (R292): Producer reserves the next rack slot. -/
  | rres (b : Bench7) (rd : Reg) (rack : BitVec 2)
  /-- RCMT (R292): Producer commits its oldest reserved slot. -/
  | rcmt (b : Bench7) (rack : BitVec 2)
  /-- RACQ (R292): Consumer takes the next published slot. -/
  | racq (b : Bench7) (rd : Reg) (rack : BitVec 2)
  /-- RREL (R292): Consumer releases its oldest taken slot. -/
  | rrel (b : Bench7) (rack : BitVec 2)
  /-- MSG_PUT (R182): MSG instruction copying local drawer bytes to a target drawer. -/
  | msgPut (b : Bench7) (rd ra : Reg)
  /-- MSG_GET (R182): MSG instruction copying target drawer bytes to the local drawer. -/
  | msgGet (b : Bench7) (rd ra : Reg)
  /-- MSG_ACCUM (R182): MSG instruction adding elements into a target drawer. -/
  | msgAccum (b : Bench7) (rd ra : Reg)
  /-- MSG_POST (R182): MSG instruction delivering a payload to a target mailbox. -/
  | msgPost (b : Bench7) (rd ra : Reg)
  /-- DADD (R555): Add to a dowel's count. -/
  | dadd (b : Bench7) (rd ra rb : Reg)
  /-- DSETT (R555): Set a dowel's target. -/
  | dsett (b : Bench7) (rd ra rb : Reg)
  /-- DWAIT (R555): Register a wait on a dowel. -/
  | dwait (b : Bench7) (rd ra : Reg)
  /-- DRD (R555): Read a dowel's count. -/
  | drd (b : Bench7) (rd ra : Reg)
  /-- DCLR (R555): Clear a dowel's count and wait list. -/
  | dclr (b : Bench7) (rd ra : Reg)
  /-- INTERRUPT_ENTRY (R130): Take a pending enabled interrupt between instructions. -/
  | interruptEntry (b : Bench7)
  /-- DEADLINE_PENDING (R59): Pending DEADLINE taken before the task's next instruction. -/
  | deadlinePending (b : Bench7)
  /-- BRANCH_RESOLVE (R213): A predicted branch resolves; shadow work commits or is discarded. -/
  | branchResolve (b : Bench7)
  /-- MARQUETRY_COMPLETE (R175): A Marquetry unit finishes its occupancy and its result becomes usable. -/
  | marquetryComplete (b : Bench7) (u : MUnit)
  /-- LOCKSTEP_MISMATCH (R136): Lockstep compare mismatch stops the bench and notifies the Foreman. -/
  | lockstepMismatch (b : Bench7) (stream : Bool)
  /-- STROKE_BOUNDARY (R35): Stroke-reference edge ends a stroke and runs the boundary steps. -/
  | strokeBoundary
  /-- DRAIN_END (R77): Drain of a stopped bench completes and DEADLINE is taken. -/
  | drainEnd (b : Bench7)
  /-- STROKE (R43): A STROKE marker control block arrives and drives alignment. -/
  | stroke (port : Port4) (m : Marker)
  /-- STROKE_HOLDOVER (R79): No marker for 2 strokes moves LOCKED to HOLDOVER. -/
  | strokeHoldover
  /-- ENTER_MASTER (R63): A CANDIDATE hearing no lower rank for 8 strokes becomes MASTER. -/
  | enterMaster
  /-- STROKE_FREERUN (R82): 64 strokes in HOLDOVER without a master enter FREERUN. -/
  | strokeFreerun
  /-- LATENCY_MEASURE (R44): Periodic one-way latency measurement every 1,024 strokes. -/
  | latencyMeasure (port : Port4) (now : Word)
  /-- TIMING_REQ (R411): Timing request control block received and answered. -/
  | timingReq (port : Port4) (ts turnaround : Word)
  /-- TIMING_RSP (R411): Timing response control block received and round trip computed. -/
  | timingRsp (port : Port4) (ts turnaround now : Word)
  /-- SLOT_START (R47): A tick-plan slot begins on a port. -/
  | slotStart (port : Port4) (slot : BitVec 6)
  /-- IDLE (R413): IDLE flit received carrying ACKSEQ, NAK and credits. -/
  | idle (port : Port4) (h : FlitHdr)
  /-- SLOT_DATA (R431): Scheduled data flit arrives and is matched to TRANSIT or RECEIVE. -/
  | slotData (port : Port4) (h : FlitHdr) (payload : List Byte)
  /-- SLOT_END (R320): Last flit of a rack slot arrives and commits the slot. -/
  | slotEnd (port : Port4) (h : FlitHdr) (payload : List Byte)
  /-- PUT (R434): PUT message arrives and writes the target drawer. -/
  | put (port : Port4) (h : FlitHdr) (m : MsgHdr) (data : List Byte)
  /-- GET (R435): GET message arrives and reads the target drawer. -/
  | get (port : Port4) (h : FlitHdr) (m : MsgHdr)
  /-- GET_DATA (R419): GET_DATA arrives and completes the requester's tag. -/
  | getData (port : Port4) (h : FlitHdr) (m : MsgHdr) (data : List Byte)
  /-- ACCUMULATE (R435): ACCUMULATE message adds elements at the target. -/
  | accumulate (port : Port4) (h : FlitHdr) (m : MsgHdr) (data : List Byte)
  /-- POST (R581): POST delivers a mailbox entry or a dowel notification. -/
  | post (port : Port4) (h : FlitHdr) (m : MsgHdr)
  /-- DOWEL (R576): DOWEL message applies a dowel operation at its device. -/
  | dowel (port : Port4) (h : FlitHdr) (m : MsgHdr)
  /-- ACK (R419): ACK arrives and completes the requester's tag. -/
  | ack (port : Port4) (h : FlitHdr) (m : MsgHdr)
  /-- TRAIN (R425): Training exchange control block received. -/
  | train (port : Port4) (t : TrainInfo)
  /-- LINK_TRAINING_STEP (R425): A training step completes and the port advances. -/
  | linkTrainingStep (port : Port4)
  /-- LINK_TRAIN_TIMEOUT (R425): A training step exceeds its limit or LOCK fails. -/
  | linkTrainTimeout (port : Port4)
  /-- LINK_TRAIN_RETRY (R425): Port returns to DETECT after 1 ms. -/
  | linkTrainRetry (port : Port4)
  /-- LINK_MARGIN_CHECK (R436): Periodic margin read that may retrain a port. -/
  | linkMarginCheck (port : Port4) (berHigh : Bool) (margin uncorrectable : BitVec 8)
  /-- LINK_DOWN (R442): Port declared down and returned to DETECT. -/
  | linkDown (port : Port4) (cause : BitVec 2)
  /-- MSG_TIMEOUT (R443): Molarga response watchdog expires. -/
  | msgTimeout (b : Bench7) (tag : BitVec 6)
  /-- BYPASS_PUMP (R628): Charge pump monitor fault closes every bypass. -/
  | bypassPump (mv : Int)
  /-- NOC_REQUEST (R383): A REQ packet reaches its endpoint and is served. -/
  | nocRequest (n : Nat) (bad : Option NocLink)
  /-- NOC_RESPONSE (R383): An RSP packet lands in its reserved slot. -/
  | nocResponse (n : Nat)
  /-- NOC_DATA (R402): A DAT transfer lands and its CRC is checked. -/
  | nocData (n : Nat) (crcOk : Bool) (bad : Option NocLink)
  /-- AGE_INCREMENT (R389): A waiting packet's AGE rises every 64 cycles. -/
  | ageIncrement (mesh : NocMesh) (n : Nat)
  /-- NOC_WATCHDOG (R403): On-chip transfer silent for 8,192 cycles is retried. -/
  | nocWatchdog (b : Bench7) (tag : BitVec 6)
  /-- PORT_RETRY (R333): A drawer port retries after its busy line. -/
  | portRetry (b : Bench7) (cls : SplitClass) (portB write : Bool) (addr : BitVec 21) (data : List Byte)
  /-- PATROL_SCRUB (R354): Scrubber reads and corrects a code word. -/
  | patrolScrub (site : MemSite)
  /-- FORCED_SCRUB (R355): Scrubber takes a port B cycle after 1,024 busy cycles. -/
  | forcedScrub (b : Bench7) (cls : SplitClass) (quarter : BitVec 6)
  /-- SCRUB_VERIFY (R633): Write-back and verify read of a queued word. -/
  | scrubVerify (b : Bench7)
  /-- SECURE_WIPE_DONE (R352): Secure region wipe completes. -/
  | secureWipeDone (micros : Nat)
  /-- CLEAR_DONE (R359): Reset memory clear completes. -/
  | clearDone
  /-- BENCH_CLEAR_DONE (R513): Clear of a bench removed from a partition completes. -/
  | benchClearDone (b : Bench7)
  /-- VENEER_INVAL_DONE (R344): Way invalidation completes and BUSY clears. -/
  | veneerInvalDone (part : Part3)
  /-- GLB_MBIST_CTL (R363): START write begins a plane run. -/
  | glbMbistCtl (v : Word)
  /-- PLANE_RUN_BEGIN (R364): Preserving run starts once every context is EMPTY. -/
  | planeRunBegin (b : Bench7)
  /-- PLANE_RUN_END (R365): Plane run ends; failing benches retired. -/
  | planeRunEnd (fails : List PlaneFail)
  /-- DESCRIPTOR_FETCH (R312): Stream descriptor burst fetched and validated. -/
  | descriptorFetch (b : Bench7)
  /-- TRANSFER_ISSUE (R310): Engine issues a transfer under a tag. -/
  | transferIssue (b : Bench7)
  /-- TRANSFER_COMPLETE (R306): Transfer completes; stream tag may complete. -/
  | transferComplete (b : Bench7) (tag : BitVec 6)
  /-- RD_DATA (R453): Host read response frame received. -/
  | rdData (m : Module2) (tag : BitVec 12) (refused poison : Bool) (data : List Byte)
  /-- WR_ACK (R453): Host write acknowledge received. -/
  | wrAck (m : Module2) (tag : BitVec 12) (refused : Bool)
  /-- SNP_INV (R473): Host snoop invalidates a Veneer line and is answered. -/
  | snpInv (m : Module2) (tag : BitVec 12) (addr : BitVec 52)
  /-- HPP_RETRAIN (R483): Module retrains on excess line errors. -/
  | hppRetrain (m : Module2) (line : BitVec 9) (ok : Bool)
  /-- HPP_TIMEOUT (R483): Oldest request unanswered for 4 µs. -/
  | hppTimeout (m : Module2) (ok : Bool)
  /-- REGISTER_WRITE (R16): Write to a register with no row of its own. -/
  | registerWrite (addr v : Word) (parityOk : Bool)
  /-- GLB_TICK_COUNT_LO (R36): Read latches GLB_TICK_COUNT_HI. -/
  | glbTickCountLo
  /-- GLB_TICK_CTL (R37): Write of tick control; LOCK starts ACQUIRE. -/
  | glbTickCtl (v : Word)
  /-- SWRST (R498): Keyed internal reset. -/
  | swrst (v : Word)
  /-- LIFECYCLE_ADVANCE (R501): Confirmed lifecycle advance starts wipe and fuse programming. -/
  | lifecycleAdvance (v : Word)
  /-- LIFECYCLE_DONE (R501): Lifecycle transition completes and BUSY clears. -/
  | lifecycleDone
  /-- PART_CFG_BENCH (R513): Grant or remove benches of a partition. -/
  | partCfgBench (v : Word)
  /-- PART_CFG_SLOTS (R514): Grant or remove link slots of a partition. -/
  | partCfgSlots (v : Word)
  /-- PART_CFG_WAYS_ALLOWED (R515): Allow or remove Veneer ways of a partition. -/
  | partCfgWaysAllowed (v : Word)
  /-- PART_CFG_CONTROL (R516): Set ENABLE and SEC_ALLOW of a partition. -/
  | partCfgControl (v : Word)
  /-- REST_REQUEST (R606): GLB_POWER_CTL.REST written 1. -/
  | restRequest (v : Word)
  /-- REST_WAKE (R609): GLB_POWER_CTL.REST written 0 requests wake. -/
  | restWake (v : Word)
  /-- REST_ENTER (R607): Rest entry once its conditions hold. -/
  | restEnter
  /-- REST_EXIT (R610): Wake sequence completes. -/
  | restExit (vsramOk vaonOk : Bool)
  /-- ADDR_LO (R508): Mailbox step setting the block address low bits. -/
  | addrLo (v : Word)
  /-- ADDR_HI (R508): Mailbox step setting the block address high bits. -/
  | addrHi (v : Word)
  /-- LINK_CONFIG (R423): Mailbox command configuring the links. -/
  | linkConfig (v : Word)
  /-- POLICY_SET (R592): Mailbox command setting the Foreman policy block. -/
  | policySet (v : Word)
  /-- POLICY_GET (R612): Mailbox command returning the policy block. -/
  | policyGet (v : Word)
  /-- TELEMETRY (R613): Mailbox command returning a telemetry page. -/
  | telemetry (v : Word)
  /-- LINK_STATUS (R614): Mailbox command returning port status words. -/
  | linkStatus (v : Word)
  /-- BENCH_RETIRE (R615): Mailbox command retiring a bench. -/
  | benchRetire (v : Word)
  /-- BENCH_READMIT (R617): Mailbox command testing and readmitting a bench. -/
  | benchReadmit (v : Word) (fail : Option PlaneFail)
  /-- UNKNOWN_OP (R612): Mailbox GO with an unassigned OP. -/
  | unknownOp (v : Word)
  /-- GLB_PINMUX (R667): Pin function change starts a parking window. -/
  | glbPinmux (v : Word)
  /-- PARK_END (R667): Parking window ends and the new function takes the pin. -/
  | parkEnd (pin : BitVec 3)
  /-- CANCEL (R572): Cancel a partition's work. -/
  | cancel (part : Part3)
  /-- RESUME (R574): Clear HALTED and resume the dispatcher. -/
  | resume (part : Part3)
  /-- CMD_ENABLE (R520): CMD_EN written 1 validates the command and completion racks. -/
  | cmdEnable (part : Part3)
  /-- CMD_DISABLE (R520): CMD_EN written 0 stops command fetch. -/
  | cmdDisable (part : Part3)
  /-- EVLOG_ENABLE (R520): EVLOG_EN written 1 validates the event log. -/
  | evlogEnable (part : Part3)
  /-- EVLOG_DISABLE (R520): EVLOG_EN written 0 discards unissued entries. -/
  | evlogDisable (part : Part3)
  /-- DOORBELL (R475): Write of TEN_CMD_TAIL. -/
  | doorbell (part : Part3) (v : Word)
  /-- TEN_CPL_HEAD (R534): Driver advances the completion head. -/
  | tenCplHead (part : Part3) (v : Word)
  /-- TEN_XLAT_CTL (R460): Translation control write; clearing EN invalidates. -/
  | tenXlatCtl (part : Part3) (v : Word)
  /-- TEN_XLAT_INVAL (R468): Request a translation-cache invalidation. -/
  | tenXlatInval (part : Part3) (v : Word)
  /-- XLAT_INVAL_DONE (R468): Invalidation completes and INVBUSY clears. -/
  | xlatInvalDone (part : Part3)
  /-- TEN_IRQ_STATUS (R479): W1C write re-evaluates the interrupt. -/
  | tenIrqStatus (part : Part3) (v : Word)
  /-- TEN_IRQ_MASK (R479): Mask write re-evaluates the interrupt. -/
  | tenIrqMask (part : Part3) (v : Word)
  /-- TEN_VENEER_WAYS (R344): Grant and invalidate Veneer ways. -/
  | tenVeneerWays (part : Part3) (v : Word)
  /-- DOWEL_DATA_ADD (R526): TEN_DOWEL_DATA write with OP ADD. -/
  | dowelDataAdd (part : Part3) (v : Word)
  /-- DOWEL_DATA_TARGET (R526): TEN_DOWEL_DATA write with OP TARGET. -/
  | dowelDataTarget (part : Part3) (v : Word)
  /-- DOWEL_DATA_CLEAR (R526): TEN_DOWEL_DATA write with OP CLEAR. -/
  | dowelDataClear (part : Part3) (v : Word)
  /-- COMMAND_FETCH (R564): Dispatcher reads a partition's commands. -/
  | commandFetch (part : Part3)
  /-- NOP (R531): Command completing with DONE. -/
  | nop (part : Part3)
  /-- LOAD (R531): Command copying an image into instruction drawers. -/
  | load (part : Part3)
  /-- RUN (R531): Command loading tasks and racks onto benches. -/
  | run (part : Part3)
  /-- SEAL (R270): Command sealing tensor descriptors. -/
  | seal (part : Part3)
  /-- PLAN_LOAD (R66): Command loading tick-plan entries. -/
  | planLoad (part : Part3)
  /-- BARRIER (R531): Command completing after earlier commands. -/
  | barrier (part : Part3)
  /-- COMPLETION_WRITE (R571): Completion entry written when the rack has room. -/
  | completionWrite (part : Part3)
  /-- EVENT_ACCEPT (R560): Event arbiter accepts a report and assigns a sequence number. -/
  | eventAccept (source : BitVec 8)
  /-- POWER_LOOP (R600): 10 µs power check lowering clocks or pacing. -/
  | powerLoop (milliwatts : Nat)
  /-- POWER_RELEASE (R602): 100 µs step removing pace or caps. -/
  | powerRelease
  /-- THERMAL_CHECK (R604): 10 µs thermal rules. -/
  | thermalCheck (readings : List Byte)
  /-- COLUMN_EVALUATION (R596): End-of-window slack evaluation of each column. -/
  | columnEvaluation (col : Col4)
  /-- TELEMETRY_FRAME (R702): Regulator telemetry frame received. -/
  | telemetryFrame (col : Col4) (frame : BitVec 25)
  /-- TELEMETRY_LOSS (R720): No valid telemetry for 2 µs or 1 ms. -/
  | telemetryLoss (col : Col4) (long : Bool)
  /-- CLOCK_MONITOR (R628): A clock monitor fires. -/
  | clockMonitor (domain : BitVec 6)
  /-- FAN_TACH (R668): Rising edge on a FAN_TACH pin is counted. -/
  | fanTach (pin : BitVec 3)
  /-- TAMPER (R644): A tamper source asserts; wipe follows. -/
  | tamper (src : TamperSrc) (measured : Word)
  /-- FOREMAN_LANE (R620): A Foreman lane leaves the majority. -/
  | foremanLane (lane : BitVec 2)
  /-- FOREMAN_WATCHDOG (R656): Foreman watchdog unserviced for 10 ms resets the device. -/
  | foremanWatchdog
  /-- POWER_ON (R656): PWROK rises after VDD_AON was down. -/
  | powerOn
  /-- PWROK_FALL (R656): PWROK falls; device enters reset. -/
  | pwrokFall (aonHeld : Bool)
  /-- RESET_N (R657): RESET_N asserted; device enters reset. -/
  | resetN
  /-- RESET_RELEASE (R664): Reset released; start-up order begins. -/
  | resetRelease
  /-- FUSE_LOAD (R641): Fuse array read three times and CRC checked. -/
  | fuseLoad
  /-- HPP_TRAINED (R487): HPP module training completes. -/
  | hppTrained (m : Module2) (ok : Bool)
  /-- BOOT_IMAGE_CHECK (R660): Boot image check ends and firmware is selected. -/
  | bootImageCheck (sfdp : Word) (quad : Bool) (image : List Byte)
  /-- FLASH_TIMEOUT (R687): Flash read stalls for 1 ms. -/
  | flashTimeout
  /-- CLAMP (R677): CLAMP_N sampled low stops every domain. -/
  | clamp
  /-- TAP_RESET (R669): TAP controller reset. -/
  | tapReset
  /-- EXTEST (R673): JTAG boundary drive in reset. -/
  | extest (dr : Nat)
  /-- IDCODE (R671): JTAG identification code. -/
  | idcode
  /-- SAMPLE_PRELOAD (R670): JTAG boundary sample or preload. -/
  | samplePreload (dr : Nat)
  /-- EXTEST_PULSE (R670): IEEE 1149.6 pulse test. -/
  | extestPulse (dr : Nat)
  /-- EXTEST_TRAIN (R670): IEEE 1149.6 train test. -/
  | extestTrain (dr : Nat)
  /-- HIGHZ (R670): JTAG high-impedance instruction. -/
  | highz (dr : Bool)
  /-- FUSEREAD (R670): JTAG fuse array read. -/
  | fuseread
  /-- BOOTINFO (R674): JTAG boot outcome read. -/
  | bootinfo
  /-- CLAMPREAD (R681): JTAG clamp readout of one word. -/
  | clampread (region : BitVec 8) (addr : Word)
  /-- FUSEPROG (R675): JTAG fuse word programming in BLANK. -/
  | fuseprog (dr : BitVec 40)
  /-- BYPASS (R670): JTAG bypass instruction. -/
  | bypass (dr : Bool)
  /-- ENTDAA (R708): I3C dynamic address assignment. -/
  | entdaa (addr : BitVec 7)
  /-- SETDASA (R708): I3C set dynamic address from static. -/
  | setdasa (static dyn : BitVec 7)
  /-- RSTDAA (R708): I3C reset dynamic address. -/
  | rstdaa
  /-- GETPID (R708): I3C provisional ID read. -/
  | getpid
  /-- GETBCR (R708): I3C bus characteristics read. -/
  | getbcr
  /-- GETDCR (R708): I3C device characteristics read. -/
  | getdcr
  /-- GETSTATUS (R708): I3C status read. -/
  | getstatus
  /-- PRIVATE_WRITE (R710): I3C private write setting OFFSET. -/
  | privateWrite (bytes : List Byte)
  /-- PRIVATE_READ (R710): I3C private read of a register, advancing OFFSET. -/
  | privateRead
  /-- RESERVED_ENCODING (R141): An instruction word whose major opcode is not assigned issues and raises ILLEGAL. -/
  | reservedEncoding (b : Bench7) (w : Word)
  /-- FLIT_CRC_FAILURE (R413): A Molarga flit arrives with a bad CRC, a reserved header field or an unexpected SEQ; it is discarded and a NAK is sent. -/
  | flitCrcFailure (port : Port4)
  /-- HPP_FRAME (R454): An HPP frame from the host arrives that carries no header, only ACKSEQ, NAK or credits, or that fails its CRC; it drives replay and credit return. -/
  | hppFrame (m : Module2) (f : HppCtl)
  /-- TAMPER_DEASSERT (R644): A tamper source that stayed asserted clears, and secure mode becomes available again. -/
  | tamperDeassert (src : TamperSrc)
  /-- FUSEPROG_DONE (R675): The 100 µs programming window of a FUSEPROG update ends, and further updates are accepted again. -/
  | fuseprogDone
  deriving DecidableEq, Repr

end Sys2Proof
end

