-- ==== Sys2Proof/WellFormed.lean ====
section
/-! DEFINITION. Well-formed commands: what a command of the outside world satisfies beyond the widths of its fields, because no
wire of the spec can carry anything else. exec is total: it answers for ill-formed commands too, and no statement about it
needs this check. -/

namespace Sys2Proof

/-- The payload of a flit is 240 bytes (R412). -/
def payloadOk (l : List Byte) : Bool := decide (l.length = 240)

/-- A message of a port brings the bytes that its LENGTH names, at most 4,096 (R417, R418). -/
def messageOk (m : MsgHdr) (l : List Byte) : Bool :=
  decide (l.length = (m.w3.extractLsb' 0 24).toNat) && decide (l.length ≤ 4096)

/-- A failing memory of a plane run is one of the MEM bits 20 to 23, bit 23 for the Veneer cache alone (R362, R365). -/
def planeFailOk (f : PlaneFail) : Bool :=
  match f.bench with
  | some _ => decide (20 ≤ f.mem.toNat) && decide (f.mem.toNat ≤ 22)
  | none => decide (f.mem.toNat = 23)

/-- The check, command by command; every command that it does not name is well formed. -/
def Instr.wf : Instr → Bool
  | .slotData _ _ payload => payloadOk payload
  | .slotEnd _ _ payload => payloadOk payload
  | .put _ _ m data => messageOk m data
  | .getData _ _ m data => messageOk m data
  | .accumulate _ _ m data => messageOk m data
  | .planeRunEnd fails => fails.all planeFailOk
  | .benchReadmit _ fail => match fail with | some f => planeFailOk f | none => true
  | .foremanLane lane => decide (lane.toNat < 3)
  | .clockMonitor domain => decide (domain.toNat < 60)
  | .thermalCheck readings => decide (readings.length = 64)
  | .bootImageCheck _ _ image => decide (image.length ≤ 32768)
  | .extest dr => decide (dr < 2 ^ Config.boundaryCells)
  | .extestPulse dr => decide (dr < 2 ^ Config.boundaryCells)
  | .extestTrain dr => decide (dr < 2 ^ Config.boundaryCells)
  | .samplePreload dr => decide (dr < 2 ^ Config.boundaryCells)
  | .portRetry _ _ _ _ addr data => decide (addr.toNat + data.length ≤ 2 ^ 21)
  | _ => true

end Sys2Proof
end

