-- ==== Sys2Proof/Decode.lean ====
section
/-! DEFINITION. The command that a word spells. The table of operations and events gives no row any bits (spec/opcode_table.json:
every row's list of fields is empty), so no word spells a command. The encoding of the Jig instructions in their own 32-bit
words is that of chapter 04: see Machine/JigDecode.lean. -/

namespace Sys2Proof

/-- The command that a word of the table's bits spells: none, for the table gives no bits. -/
def decodeTableWord (_nbits _w : Nat) : Option Instr := none

end Sys2Proof
end

