-- ==== Sys2Proof/Machine/Tab.lean ====
section
/-! DEFINITION. Sparse tables: the one way this model holds an array (registers, memories, benches,
tenants, ports). A table lists (index, value) pairs with rising indices and never lists an entry
equal to the value `d` that an unlisted index reads as, so equal contents are equal data. -/

namespace Sys2Proof.Machine

/-- A sparse table of values indexed by `Nat`. -/
abbrev Tab (α : Type) := List (Nat × α)

/-- The value at index `k`; an unlisted index reads as `d`. -/
def tget {α : Type} (d : α) : Tab α → Nat → α
  | [], _ => d
  | (i, v) :: t, k => if i = k then v else tget d t k

/-- The entry listed at index `k`, if any. -/
def tfind {α : Type} : Tab α → Nat → Option α
  | [], _ => none
  | (i, v) :: t, k => if i = k then some v else tfind t k

/-- List `v` at index `k`, keeping the indices rising. -/
def tput {α : Type} (k : Nat) (v : α) : Tab α → Tab α
  | [] => [(k, v)]
  | (i, w) :: t =>
    if k < i then (k, v) :: (i, w) :: t
    else if k = i then (k, v) :: t
    else (i, w) :: tput k v t

/-- List nothing at index `k`. -/
def tdel {α : Type} (k : Nat) : Tab α → Tab α
  | [] => []
  | (i, w) :: t => if i = k then tdel k t else (i, w) :: tdel k t

/-- Write `v` at index `k` of a table whose unlisted indices read as `d`. -/
def tset {α : Type} [DecidableEq α] (d : α) (t : Tab α) (k : Nat) (v : α) : Tab α :=
  if v = d then tdel k t else tput k v t

/-- Change the value at index `k` by `f`. -/
def tmod {α : Type} [DecidableEq α] (d : α) (t : Tab α) (k : Nat) (f : α → α) : Tab α :=
  tset d t k (f (tget d t k))

/-- Every index of the table is above `k`. -/
def tabove {α : Type} (k : Nat) : Tab α → Bool
  | [] => true
  | (i, _) :: t => decide (k < i) && tabove k t

/-- The canonical form: rising indices and no entry equal to `d`. -/
def twf {α : Type} [DecidableEq α] (d : α) : Tab α → Bool
  | [] => true
  | (i, v) :: t => tabove i t && decide (v ≠ d) && twf d t

/-- Byte contents of an address range. -/
abbrev Mem := Tab Byte

/-- The byte at `a` of memory that reads 0 where nothing is listed. -/
def Mem.get (m : Mem) (a : Nat) : Byte := tget 0 m a
/-- Memory with byte `v` written at `a`. -/
def Mem.set (m : Mem) (a : Nat) (v : Byte) : Mem := tset 0 m a v

/-- Write bytes at ascending addresses from `a`. -/
def Mem.setBytes (m : Mem) (a : Nat) : List Byte → Mem
  | [] => m
  | v :: vs => Mem.setBytes (m.set a v) (a + 1) vs

/-- The `n` bytes from `a` upward. -/
def Mem.getBytes (m : Mem) (a : Nat) : Nat → List Byte
  | 0 => []
  | n + 1 => m.get a :: Mem.getBytes m (a + 1) n

/-- Clear the bytes with `lo ≤ address < hi` to 0. -/
def Mem.clear (m : Mem) (lo hi : Nat) : Mem := m.filter fun e => decide (e.1 < lo) || decide (hi ≤ e.1)

/-- The canonical form of a memory. -/
def Mem.wf (m : Mem) : Bool := twf 0 m

end Sys2Proof.Machine
end

