-- ==== Sys2Proof/Machine/Bits.lean ====
section
/-! DEFINITION. Bit fields, byte order and small list helpers. The device is little-endian (R11). -/

namespace Sys2Proof.Machine

/-- The word that `n` little-endian bytes spell, as a number. -/
def leNat : List Byte → Nat
  | [] => 0
  | b :: bs => b.toNat + 256 * leNat bs

/-- The `n` little-endian bytes of a number. -/
def leBytes : Nat → Nat → List Byte
  | 0, _ => []
  | n + 1, x => BitVec.ofNat 8 x :: leBytes n (x / 256)

/-- Bits `hi` down to `lo` of a number. -/
def fld (x hi lo : Nat) : Nat := (x / 2 ^ lo) % 2 ^ (hi + 1 - lo)

/-- Bits `hi` down to `lo` of a word, as a number. -/
def wfld (x : Word) (hi lo : Nat) : Nat := fld x.toNat hi lo

/-- `x` with bits `hi` down to `lo` holding `v`. -/
def wput (x : Word) (hi lo : Nat) (v : Nat) : Word :=
  let m : Word := BitVec.ofNat 32 ((2 ^ (hi + 1 - lo) - 1) * 2 ^ lo)
  (x &&& ~~~m) ||| (BitVec.ofNat 32 (v * 2 ^ lo) &&& m)

/-- A word holding number `v`. -/
abbrev w32 (v : Nat) : Word := BitVec.ofNat 32 v

/-- Sign-extend a field to a word. -/
def sext {w : Nat} (x : BitVec w) : Word := x.signExtend 32
/-- Zero-extend a field to a word. -/
def zext {w : Nat} (x : BitVec w) : Word := x.zeroExtend 32

/-- `n` divided by `d`, rounded up. -/
def ceilDiv (n d : Nat) : Nat := (n + d - 1) / d

/-- Element `i` of a list of numbers, 0 beyond its end. -/
def nth0 (l : List Nat) (i : Nat) : Nat := l.getD i 0

/-- The number that bit `i` selects. -/
def bitN (x i : Nat) : Nat := (x / 2 ^ i) % 2

/-- The numbers of the set bits of a 128-bit mask, ascending. -/
def maskList (m : BitVec 128) : List Nat := (List.range 128).filter fun i => m.getLsbD i

/-- A mask with bit `i` set to `v`. -/
def maskSet (m : BitVec 128) (i : Nat) (v : Bool) : BitVec 128 :=
  let one : BitVec 128 := BitVec.ofNat 128 (2 ^ i)
  if v then m ||| one else m &&& ~~~one

/-- Fold a state over a list of numbers. -/
def foldN {σ : Type} (f : σ → Nat → σ) (s : σ) (l : List Nat) : σ := l.foldl f s

/-- The error codes of R537. -/
def errALIGN : Nat := 1
/-- LENGTH (R537). -/
def errLENGTH : Nat := 2
/-- RANGE (R537). -/
def errRANGE : Nat := 3
/-- RACK_SIZE (R537). -/
def errRACK : Nat := 4
/-- SHAPE (R537). -/
def errSHAPE : Nat := 5
/-- TYPE (R537). -/
def errTYPE : Nat := 6
/-- OWNER (R537). -/
def errOWNER : Nat := 7
/-- PARTITION (R537). -/
def errPART : Nat := 8

/-- CRC-32 step over one bit (reflected polynomial 0xEDB88320). -/
def crcBit (c : Nat) : Nat := if c % 2 = 1 then (c / 2) ^^^ 0xEDB88320 else c / 2
/-- CRC-32 over one byte. -/
def crcByte (c : Nat) (b : Byte) : Nat :=
  crcBit (crcBit (crcBit (crcBit (crcBit (crcBit (crcBit (crcBit (c ^^^ b.toNat))))))))

/-- The CRC-32 of bytes with the Ethernet parameters (R412). -/
def crc32 (l : List Byte) : Nat := (l.foldl crcByte 0xFFFFFFFF) ^^^ 0xFFFFFFFF

end Sys2Proof.Machine
end

