-- ==== Sys2Proof/Machine/Float.lean ====
section
/-! DEFINITION. Floating-point values and their roundings: the additions of R166, R182 and R726, the
narrowing of R168, the widening of R199, and the conversions of R252, R253, R274 and R275. A finite
value is held exactly as a sign, a magnitude and a power of two. -/

namespace Sys2Proof.Machine

/-- A number of a floating-point format, exactly. -/
inductive FVal where
  | nan (neg : Bool)
  | inf (neg : Bool)
  /-- `(-1)^neg * m * 2^e`. -/
  | fin (neg : Bool) (m : Nat) (e : Int)
  deriving DecidableEq, Repr

/-- How a format spends its highest exponent: IEEE 754, OCP E4M3, or no special value at all (MX elements). -/
inductive FTop where
  | ieee | e4m3 | none
  deriving DecidableEq, Repr

/-- A binary format: exponent bits, fraction bits, and its special values. -/
structure FFmt where
  eb  : Nat
  mb  : Nat
  top : FTop
  deriving DecidableEq, Repr

/-- IEEE 754 binary32. -/
def fp32 : FFmt := ⟨8, 23, .ieee⟩
/-- The upper half of binary32 (R252). -/
def bf16 : FFmt := ⟨8, 7, .ieee⟩
/-- IEEE 754 binary16. -/
def fp16 : FFmt := ⟨5, 10, .ieee⟩
/-- OCP FP8 E4M3 (R252). -/
def e4m3 : FFmt := ⟨4, 3, .e4m3⟩
/-- OCP FP8 E5M2 (R252). -/
def e5m2 : FFmt := ⟨5, 2, .ieee⟩
/-- OCP MXFP6 E2M3 (R251). -/
def e2m3 : FFmt := ⟨2, 3, .none⟩
/-- OCP MXFP6 E3M2 (R251). -/
def e3m2 : FFmt := ⟨3, 2, .none⟩
/-- OCP MXFP4 E2M1 (R251). -/
def e2m1 : FFmt := ⟨2, 1, .none⟩

/-- The width of a format in bits. -/
def FFmt.width (f : FFmt) : Nat := 1 + f.eb + f.mb
/-- The exponent of the lowest bit of a subnormal. -/
def FFmt.emin (f : FFmt) : Int := 1 - (2 ^ (f.eb - 1) - 1 : Nat) - f.mb
/-- The code of the largest finite magnitude. -/
def FFmt.maxCode (f : FFmt) : Nat :=
  match f.top with
  | .ieee => (2 ^ f.eb - 1) * 2 ^ f.mb - 1
  | .e4m3 => 2 ^ (f.eb + f.mb) - 2
  | .none => 2 ^ (f.eb + f.mb) - 1
/-- The code of infinity, where the format has one. -/
def FFmt.infCode (f : FFmt) : Nat := (2 ^ f.eb - 1) * 2 ^ f.mb
/-- The canonical quiet NaN without its sign (R726, R274). -/
def FFmt.nanCode (f : FFmt) : Nat :=
  match f.top with
  | .ieee => f.infCode + 2 ^ (f.mb - 1)
  | .e4m3 => 2 ^ (f.eb + f.mb) - 1
  | .none => f.maxCode
/-- The sign bit of a code. -/
def FFmt.signed (f : FFmt) (neg : Bool) (code : Nat) : Nat := code + b2n neg * 2 ^ (f.eb + f.mb)

/-- The value of a code. -/
def FFmt.decode (f : FFmt) (x : Nat) : FVal :=
  let neg := bitN x (f.eb + f.mb) = 1
  let e := fld x (f.eb + f.mb - 1) f.mb
  let m := x % 2 ^ f.mb
  let finite := if e = 0 then FVal.fin neg m f.emin else .fin neg (2 ^ f.mb + m) (f.emin + (e - 1))
  match f.top with
  | .ieee => if e = 2 ^ f.eb - 1 then (if m = 0 then .inf neg else .nan neg) else finite
  | .e4m3 => if e = 2 ^ f.eb - 1 ∧ m = 2 ^ f.mb - 1 then .nan neg else finite
  | .none => finite

/-- `m / 2^sh` rounded to nearest, ties to even. -/
def rne (m sh : Nat) : Nat :=
  let q := m / 2 ^ sh
  let r := 2 * (m % 2 ^ sh)
  if 2 ^ sh < r ∨ (r = 2 ^ sh ∧ 0 < sh ∧ q % 2 = 1) then q + 1 else q

/-- `m * 2^e` scaled to units of `2^q`, rounded to nearest, ties to even. -/
def scaleTo (m : Nat) (e q : Int) : Nat :=
  if q ≤ e then m * 2 ^ (e - q).toNat else rne m (q - e).toNat

/-- The magnitude code of `m * 2^e` rounded to nearest, ties to even, without an upper bound. -/
def FFmt.magCode (f : FFmt) (m : Nat) (e : Int) : Nat :=
  if m = 0 then 0 else
    let q := max ((Nat.log2 m : Int) + e - f.mb) f.emin
    (q - f.emin).toNat * 2 ^ f.mb + scaleTo m e q

/-- The code of a value: round to nearest, ties to even; beyond the largest finite value, infinity, or
the largest finite value where `sat` asks for it or the format has no infinity (R274). -/
def FFmt.encode (f : FFmt) (sat : Bool) (v : FVal) : Nat :=
  let excess := if sat || f.top != .ieee then f.maxCode else f.infCode
  match v with
  | .nan neg => f.signed neg f.nanCode
  | .inf neg => f.signed neg excess
  | .fin neg m e =>
    let c := f.magCode m e
    f.signed neg (if f.maxCode < c then excess else c)

/-- The sum of two values; a NaN operand or an invalid sum gives the NaN of sign 0 (R726). -/
def FVal.add : FVal → FVal → FVal
  | .nan _, _ => .nan false
  | _, .nan _ => .nan false
  | .inf a, .inf b => if a = b then .inf a else .nan false
  | .inf a, .fin .. => .inf a
  | .fin .., .inf b => .inf b
  | .fin a m e, .fin b n g =>
    let q := min e g
    let x : Int := (if a then -1 else 1) * (m * 2 ^ (e - q).toNat : Nat)
    let y : Int := (if b then -1 else 1) * (n * 2 ^ (g - q).toNat : Nat)
    let t := x + y
    if t = 0 then .fin (a && b) 0 q else .fin (decide (t < 0)) t.natAbs q

/-- Addition in a format: exact, then rounded once (R166, R182). -/
def FFmt.add (f : FFmt) (x y : Nat) : Nat := f.encode false ((f.decode x).add (f.decode y))

/-- A code of one format in another, as R274 rounds it (FP8 saturates). -/
def FFmt.convert (f g : FFmt) (x : Nat) : Nat := g.encode (decide (g.width = 8)) (f.decode x)

/-- An integer as a value. -/
def FVal.ofInt (x : Int) : FVal := .fin (decide (x < 0)) x.natAbs 0

/-- Multiply a finite value by `2^k`. -/
def FVal.scale (k : Int) : FVal → FVal
  | .fin n m e => .fin n m (e + k)
  | v => v

/-- Clamp to a range. -/
def clampI (lo hi x : Int) : Int := if x < lo then lo else if hi < x then hi else x

/-- A value as an integer of a range: nearest, ties to even; saturating; NaN gives 0 (R274). -/
def FVal.toInt (lo hi : Int) : FVal → Int
  | .nan _ => 0
  | .inf n => if n then lo else hi
  | .fin n m e =>
    let k : Int := scaleTo m e 0
    clampI lo hi (if n then -k else k)

/-- `x` of `w` bits as a two's complement number. -/
def sval (w x : Nat) : Int := if bitN x (w - 1) = 1 then (x : Int) - (2 ^ w : Nat) else x

/-- A number as `w` bits, modulo `2^w`. -/
def uval (w : Nat) (x : Int) : Nat := (x % (2 ^ w : Nat)).toNat

/-- The exponent of a magnitude: floor of its base 2 logarithm; none for 0. -/
def FVal.exp : FVal → Option Int
  | .fin _ m e => if m = 0 then none else some ((Nat.log2 m : Int) + e)
  | _ => none

end Sys2Proof.Machine
end

