-- ==== Sys2Proof/Machine/Elems.lean ====
section
/-! DEFINITION. Elements of tiles and the permutation datapath as functions on lists: element packing
(R159, R189), transposes (R161, R173), the Beneš fabric and the Kerf solves (R226 to R232), and
accumulation in a type (R166, R182). -/

namespace Sys2Proof.Machine

/-- Element width in bits of an EW code (R159). -/
def ewBits (ew : BitVec 2) : Nat := if ew = 3 then 1 else 8 * 2 ^ ew.toNat

/-- Element width in bytes of an EW code, taking 1 byte for a bit plane (R162). -/
def ewBytes (ew : BitVec 2) : Nat := if ew = 3 then 1 else 2 ^ ew.toNat

/-- The list cut into pieces of `n`; `fuel` bounds their number. -/
def chunksF {α : Type} (n : Nat) : Nat → List α → List (List α)
  | 0, _ => []
  | fuel + 1, l => if l.isEmpty then [] else l.take n :: chunksF n fuel (l.drop n)

/-- The list cut into pieces of `n`. -/
def chunks {α : Type} (n : Nat) (l : List α) : List (List α) := chunksF n l.length l

/-- The elements of `w` bits (1, 8, 16 or 32) that a row of bytes holds, in order (R189). -/
def elemsOf (w : Nat) (bytes : List Byte) : List Nat :=
  if w = 1 then bytes.flatMap fun b => (List.range 8).map fun i => bitN b.toNat i
  else (chunks (w / 8) bytes).map leNat

/-- The bytes that hold a row of elements. -/
def bytesOf (w : Nat) (es : List Nat) : List Byte :=
  if w = 1 then (chunks 8 es).map fun bs => BitVec.ofNat 8 (bs.foldr (fun b acc => b % 2 + 2 * acc) 0)
  else es.flatMap fun e => leBytes (w / 8) e

/-- The transpose of `rows`, which are `n` columns wide. -/
def transposeL (n : Nat) (rows : List (List Nat)) : List (List Nat) :=
  (List.range n).map fun c => rows.map fun r => nth0 r c

/-- BTRN of eight rows: bit `j` of row `i` becomes bit `i` of row `j`, for each byte column (R173). -/
def btrn8 (rows : List (List Nat)) : List (List Nat) :=
  (List.range 8).map fun j =>
    (List.range (rows.headD []).length).map fun c =>
      ((List.range 8).map fun i => bitN (nth0 (rows.getD i []) c) j * 2 ^ i).sum

/-- The lane bit that stage `s` of the fabric works across (R226). -/
def stageBit (s : Nat) : Nat := if s ≤ 7 then 7 - s else s - 7

/-- The switch of stage `s` that lane `x` belongs to (R227). -/
def switchOf (s x : Nat) : Nat :=
  let d := stageBit s
  let low := if bitN x d = 1 then x - 2 ^ d else x
  (low / 2 ^ (d + 1)) * 2 ^ d + low % 2 ^ d

/-- The image bit of the switch of stage `s` that holds lane `x` (R228). -/
def switchBit (s x : Nat) : Nat := 128 * s + switchOf s x

/-- Exchange across lane bit `d`. -/
def flipBit (x d : Nat) : Nat := if bitN x d = 1 then x - 2 ^ d else x + 2 ^ d

/-- Settings being solved: the image bits set so far, with their values. -/
abbrev Settings := Tab Nat

/-- Whether a switch has been set in this solve (R229). -/
def swIsset (st : Settings) (s x : Nat) : Bool := (tfind st (switchBit s x)).isSome
/-- The setting of a switch (R229). -/
def swGet (st : Settings) (s x : Nat) : Nat := (tfind st (switchBit s x)).getD 0
/-- Set a switch (R229). -/
def swSet (st : Settings) (s x v : Nat) : Settings := tput (switchBit s x) v st

/-- The output lane of the group at `base` that takes input `j` (R229). -/
def invOf (base n : Nat) (src : Tab Nat) (j : Nat) : Nat :=
  ((List.range n).map (base + ·)).find? (fun o => (tfind src o).getD 0 = j) |>.getD base

/-- The do-while loop of R229, with the half `h = 0`. -/
def solveLoop (base d : Nat) (src : Tab Nat) : Nat → Settings → Nat → Settings
  | 0, st, _ => st
  | fuel + 1, st, o =>
    let j := (tfind src o).getD 0
    let st := swSet (swSet st (7 + d) o (bitN o d)) (7 - d) j (bitN j d)
    let o' := flipBit (invOf base (2 ^ (d + 1)) src (flipBit j d)) d
    if swIsset st (7 - d) ((tfind src o').getD 0) then st else solveLoop base d src fuel st o'

/-- The solve of R229 on the group of lanes `base` to `base + 2^(d+1) - 1`. -/
def solveSw (base : Nat) : Nat → Tab Nat → Settings → Settings
  | 0, src, st => swSet st 7 base (b2n ((tfind src base).getD 0 != base))
  | d + 1, src, st =>
    let dd := d + 1
    let lanes := (List.range (2 ^ (dd + 1))).map (base + ·)
    let st := lanes.foldl (fun st o0 =>
      if bitN o0 dd = 1 || swIsset st (7 + dd) o0 then st else solveLoop base dd src 256 st o0) st
    let half (h : Nat) : Tab Nat := lanes.foldl (fun sub o =>
      let i := (tfind src o).getD 0
      let z := if swGet st (7 + dd) o = 1 then flipBit o dd else o
      let y := if swGet st (7 - dd) i = 1 then flipBit i dd else i
      if bitN z dd = h then tput z y sub else sub) []
    solveSw (base + 2 ^ dd) d (half 1) (solveSw base d (half 0) st)

/-- The 256-byte image of the pattern that gives output lane `o` the input lane `src[o]` (R228, R229). -/
def solveImage (src : List Nat) : List Byte :=
  let st := solveSw 0 7 ((List.range 256).map fun o => (o, nth0 src o)) []
  (List.range 256).map fun k =>
    BitVec.ofNat 8 ((List.range 8).map fun i => (tfind st (8 * k + i)).getD 0 * 2 ^ i).sum

/-- Route 256 lanes through the settings of an image (R226, R228). -/
def routeLanes (img : List Byte) (lanes : List Nat) : List Nat :=
  (List.range 15).foldl (fun l s =>
    (List.range 256).map fun x =>
      let k := switchBit s x
      if bitN (img.getD (k / 8) 0).toNat (k % 8) = 1 then nth0 l (flipBit x (stageBit s)) else nth0 l x) lanes

/-- The index vector of KSI after its clamp (R170). -/
def ksiClamp (idx : List Nat) : List Nat := idx.map fun i => if 256 ≤ i then 255 else i

/-- Completion of an index vector to a permutation (R170): a repeated index takes the lowest unused one. -/
def ksiComplete (idx : List Nat) : List Nat :=
  let unused := (List.range 256).filter fun i => !idx.contains i
  (idx.foldl (fun (acc : List Nat × List Nat × List Nat) i =>
    let (out, seen, free) := acc
    if seen.contains i then (out ++ [free.headD 0], seen, free.tail) else (out ++ [i], i :: seen, free))
    ([], [], unused)).1

/-- The sort value of a key (R171, R232). -/
def keyVal (w : Nat) (kt : BitVec 2) (x : Nat) : Int :=
  if kt = 0 then x
  else if kt = 1 then sval w x
  else if bitN x (w - 1) = 1 then (2 ^ w - 1 - x : Nat) else (x + 2 ^ (w - 1) : Nat)

/-- Insert a lane into a list kept in order; equal keys keep ascending lanes. -/
def insertKey (before : Int → Int → Bool) (k : Int) (lane : Nat) : List (Int × Nat) → List (Int × Nat)
  | [] => [(k, lane)]
  | (k', l') :: t => if before k k' then (k, lane) :: (k', l') :: t else (k', l') :: insertKey before k lane t

/-- The lanes in the order of their keys; `desc` asks for descending; ties keep ascending lanes. -/
def rankLanes (desc : Bool) (keys : List Int) : List Nat :=
  ((keys.zipIdx).foldl (fun acc kl =>
    insertKey (fun a b => if desc then decide (b < a) else decide (a < b)) kl.1 kl.2 acc) []).map (·.2)

/-- The source lanes of KSR (R171). -/
def ksrSrc (w : Nat) (kt : BitVec 2) (dir : Bool) (keys : List Nat) : List Nat :=
  rankLanes dir (keys.map (keyVal w kt))

/-- The source lanes of KTK: the `k` selected lanes, then the rest in ascending lane order (R171). -/
def ktkSrc (w : Nat) (kt : BitVec 2) (dir : Bool) (k : Nat) (keys : List Nat) : List Nat :=
  let sel := (rankLanes (!dir) (keys.map (keyVal w kt))).take k
  sel ++ (List.range 256).filter fun i => !sel.contains i

/-- The element types that accumulate: TY of R164 and of R181 (INT8, INT16, INT32, BF16, FP16, FP32). -/
inductive AccTy where
  | int8 | int16 | int32 | bf16 | fp16 | fp32
  deriving DecidableEq, Repr

/-- TY of the glue-up group (R164); 6 and 7 are illegal. -/
def glueTy (ty : BitVec 3) : Option AccTy :=
  [AccTy.int8, .int16, .int32, .bf16, .fp16, .fp32][ty.toNat]?

/-- TY of ACCUM (R181). -/
def accumTy (ty : Nat) : Option AccTy := [AccTy.int32, .fp32, .bf16, .fp16, .int16, .int8][ty]?

/-- The width of a type in bytes. -/
def AccTy.bytes : AccTy → Nat
  | .int8 => 1 | .int16 | .bf16 | .fp16 => 2 | .int32 | .fp32 => 4

/-- Whether a type is of the float class (R164). -/
def AccTy.isFloat : AccTy → Bool
  | .bf16 | .fp16 | .fp32 => true
  | _ => false

/-- Conversion of an element to a glue-up lane (R199). -/
def AccTy.widen : AccTy → Nat → Nat
  | .int8, x => uval 32 (sval 8 x)
  | .int16, x => uval 32 (sval 16 x)
  | .int32, x | .fp32, x => x
  | .bf16, x => Machine.bf16.convert Machine.fp32 x
  | .fp16, x => Machine.fp16.convert Machine.fp32 x

/-- Addition of two elements of a type in that type (R182). -/
def AccTy.addEl : AccTy → Nat → Nat → Nat
  | .int8, x, y => (x + y) % 2 ^ 8
  | .int16, x, y => (x + y) % 2 ^ 16
  | .int32, x, y => (x + y) % 2 ^ 32
  | .bf16, x, y => Machine.bf16.add x y
  | .fp16, x, y => Machine.fp16.add x y
  | .fp32, x, y => Machine.fp32.add x y

/-- Addition in a glue-up lane of the class (R166). -/
def laneAdd (isFloat : Bool) (x y : Nat) : Nat := if isFloat then fp32.add x y else (x + y) % 2 ^ 32

/-- The value that DRAIN writes for a lane (R168). -/
def drainEl (fmt : BitVec 2) (x : Nat) : Nat :=
  if fmt = 1 then fp32.convert bf16 x
  else if fmt = 2 then fp32.convert fp16 x
  else if fmt = 3 then uval 16 (clampI (-32768) 32767 (sval 32 x))
  else x

/-- The two sums of the multiset checksum (R236). -/
def multisetSums (xs : List Nat) : Nat × Nat :=
  let rotl (x n : Nat) := (x * 2 ^ n + x / 2 ^ (32 - n)) % 2 ^ 32
  (xs.sum % 2 ^ 32, (xs.map fun x => x ^^^ rotl x 11 ^^^ rotl x 23).sum % 2 ^ 32)

end Sys2Proof.Machine
end

