-- ==== Sys2Proof/Machine/State.lean ====
section
/-! DEFINITION. The state of the block as plain data, and the state after reset. Every default value
below is the value of that piece of state after reset (R544 and the reset sections of the chapters). -/

namespace Sys2Proof.Machine

/-- The contents of an array that can become undefined as a whole (R164, R194): an unlisted byte reads
0, or the free value of region `undef` (log 6). -/
structure Store where
  cells : Mem := []
  undef : Option Nat := none
  deriving DecidableEq, Repr

/-- The byte at `a`. -/
def Store.get (s : Store) (a : Nat) : Byte :=
  match tfind s.cells a with
  | some v => v
  | none => match s.undef with
    | none => 0
    | some n => Config.freeByte n a

/-- Write one byte. -/
def Store.set (s : Store) (a : Nat) (v : Byte) : Store :=
  match s.undef with
  | none => { s with cells := s.cells.set a v }
  | some _ => { s with cells := tput a v s.cells }

/-- Write bytes upward from `a`. -/
def Store.setBytes (s : Store) (a : Nat) : List Byte → Store
  | [] => s
  | v :: vs => Store.setBytes (s.set a v) (a + 1) vs

/-- The `n` bytes from `a` upward. -/
def Store.getBytes (s : Store) (a n : Nat) : List Byte := (List.range n).map fun i => s.get (a + i)

/-- Why a step stops with a fault. No rule of the spec stops the block, and nothing in this model raises
one (safe): every command of the table has an effect, which may be to change nothing. -/
inductive Fault where
  /-- Raised by nothing. Safe. -/
  | none
  deriving DecidableEq, Repr

/-- Why a command has no meaning. -/
inductive Refusal where
  /-- Raised by exec's arm for a command that the model does not cover yet. Safe. -/
  | notModelled (mnemonic : String)
  deriving DecidableEq, Repr

/-! ## A bench -/

/-- The five states of a task context (R112). -/
inductive TaskStatus where
  | empty | ready | running | waiting | stalled
  deriving DecidableEq, Repr

/-- What a WAITING or STALLED context awaits (R112, R569, R59, R292). -/
inductive Await where
  | nothing
  /-- The boundary after WSTROKE (R59). -/
  | boundary
  /-- The boundary at which the tasks of its RUN become READY (R569). -/
  | start
  /-- A published slot of a rack (RACQ). -/
  | published (rack : Nat)
  /-- A free slot of a rack (RRES). -/
  | freeSlot (rack : Nat)
  /-- The completion of a tag (TWAIT). -/
  | tag (t : Nat)
  deriving DecidableEq, Repr

/-- A branch or jump whose delay slot has not retired (R103). -/
structure Delay where
  /-- Address of the branch. -/
  pc : Word
  /-- Address at which issue goes on after the slot: the predicted path. -/
  next : Word
  /-- The address of the other path, for a predicted conditional branch. -/
  other : Option Word
  /-- Whether the prediction is right. -/
  right : Bool
  deriving DecidableEq, Repr

/-- One of the four task contexts of a bench (R112, R113, R119). -/
structure Ctx where
  status   : TaskStatus := .empty
  pc       : Word := 0
  /-- g1 to g31; an unlisted register holds 0, and g0 is never listed (R90). -/
  regs     : Tab Word := []
  /-- JSTAT without its computed fields PBCNT and TASK (R93). -/
  jstat    : Word := 0x805
  jepc     : Word := 0
  jcause   : Word := 0
  jbadaddr : Word := 0
  jmode    : Word := 0
  jien     : Word := 0
  jscratch : Word := 0
  lstart   : Tab Word := []
  lend     : Tab Word := []
  lcnt     : Tab Word := []
  delay    : Option Delay := none
  /-- The mode that the next instruction's retire brings (R101). -/
  modeShadow : Option (BitVec 2) := none
  /-- DEADLINE is pending (R59, R76). -/
  deadline : Bool := false
  await    : Await := .nothing
  /-- The command that loaded the task: its partition and its count (R531). -/
  part     : Nat := 0
  cmd      : Nat := 0
  /-- Racks that the RUN configured here (R570). -/
  rackMask : BitVec 4 := 0
  deriving DecidableEq, Repr

/-- A board of the board file (R159, R187, R188, R192, R195). ROWS and RBYTES are held as numbers 1 to 64. -/
structure Board where
  data   : Store := {}
  rows   : Nat := 64
  rbytes : Nat := 64
  ew     : BitVec 2 := 0
  owner  : Option Nat := none
  secure : Bool := false
  deriving DecidableEq, Repr

/-- The glue-up (R188, R198): class none, integer (false) or float (true). Lane `e` of row `r` is the
word at byte 256 r + 4 e. -/
structure Glue where
  data   : Store := {}
  cls    : Option Bool := none
  secure : Bool := false
  deriving DecidableEq, Repr

/-- A pattern slot: its 240 bytes of settings (R228) and its secure mark (R234). -/
structure Slot where
  img    : Store := {}
  secure : Bool := false
  deriving DecidableEq, Repr

/-- The applied-pattern register (R224, R233): the slot that counts as last applied, the settings and their mark. -/
structure Applied where
  slot   : Option Nat := none
  img    : Store := {}
  secure : Bool := false
  deriving DecidableEq, Repr

/-- A speculation buffer (R188, R209): 4,096 bytes, a board laid out as a board and a pattern in its first 240 bytes; `secure`:
its result was computed in secure mode. -/
structure SpecBuf where
  data   : Store := {}
  secure : Bool := false
  deriving DecidableEq, Repr

/-- What an operation in flight writes (R186): a board, a pattern slot, glue-up rows, or runs of drawer bytes, each with its
address and its length. -/
inductive Dest where
  | nothing
  | board (n : Nat)
  | slot (n : Nat)
  | glue (rows : List Nat)
  | drawer (runs : List (Nat × Nat))
  deriving DecidableEq, Repr

/-- What an operation in flight reads that another operation may write (R175). -/
inductive Source where
  | board (n : Nat)
  | slot (n : Nat)
  deriving DecidableEq, Repr

/-- What an entry in flight is: a window load with its register and its number (R146), an operation of a Marquetry part (R175)
or of drawer port A (BLD, BST, ACC, ACCI and DRAIN), or a predicted branch, with whether its prediction is right (R107). -/
inductive OpKind where
  | load (reg id : Nat)
  | unit (u : MUnit)
  | branch (right : Bool)
  deriving DecidableEq, Repr

/-- What the Jig core holds at a point of the program: what a squash or an abandoned operation brings back (R186, R213). -/
structure Snap where
  ctx   : Ctx
  jvec  : Word
  jsvec : Word
  deriving DecidableEq, Repr

/-- An instruction that has issued and has not committed, in the order of issue (R143). -/
structure Op where
  kind    : OpKind
  /-- The Jig core before the instruction; for a branch, after its delay slot, on the right path. -/
  snap    : Snap
  dest    : Dest := .nothing
  reads   : List Source := []
  /-- The unit works on it (R175); its result is complete (R143). -/
  started : Bool := false
  done    : Bool := false
  /-- The speculation buffer that holds its result (R209). -/
  buf     : Option Nat := none
  /-- PERM: what the applied-pattern register holds from its start on (R214, R233). -/
  applied : Option Applied := none
  /-- Bytes that it permutes, counted when it starts (R243). -/
  bytes   : Nat := 0
  /-- Clamped indices that TEN_OOB_COUNT counts when it commits (R246). -/
  oob     : Nat := 0
  /-- Instructions issued from here to the next entry, itself included (R143, R107). -/
  after   : Nat := 0
  deriving DecidableEq, Repr

/-- A rack slot that a RECEIVE entry fills (R320): its counter value, the index of the entry, the bytes that have
arrived, whether its SLOT_END has arrived, whether it takes poison, and the boundaries since its reservation. -/
structure Fill where
  cnt    : Nat
  idx    : Nat
  bytes  : Nat := 0
  ended  : Bool := false
  poison : Bool := false
  age    : Nat := 0
  deriving DecidableEq, Repr

/-- A rack (R288, R289, R291), with its poison flags and what the tick plan and streams hold of it. -/
structure Rack where
  base    : Nat := 0
  enable  : Bool := false
  sizelog : Nat := 0
  qdepth  : Nat := 0
  slotlog : Nat := 0
  cons    : BitVec 2 := 0
  prod    : BitVec 2 := 0
  res     : Word := 0
  cmt     : Word := 0
  pub     : Word := 0
  acq     : Word := 0
  rel     : Word := 0
  lasterr : Nat := 0
  /-- Poison flags of the slots, by slot index. -/
  poison  : Tab Bool := []
  /-- Slots committed in the present stroke by the bench's own code, by counter value (R77). -/
  own     : List Nat := []
  /-- RECEIVE claims of the present stroke: (tick-plan index, slots) (R320). -/
  claims  : List (Nat × Nat) := []
  /-- Slots that RECEIVE entries fill, in the order in which they were reserved (R320). -/
  fills   : List Fill := []
  /-- RECEIVE entries whose flits are discarded up to the next SLOT_END (R320). -/
  discard : List Nat := []
  /-- RECEIVE entries whose next committed slot carries poison (R320). -/
  poisonNext : List Nat := []
  /-- RECEIVE entries that logged RACK_OVERRUN for a rack that is not theirs in this stroke (R322). -/
  overrun : List Nat := []
  deriving DecidableEq, Repr

/-- The tags of a bench (R179, R287): the free tags in the order they became free, and the status each holds. -/
structure Tags where
  free   : List Nat := List.range 64
  status : Tab Nat := []
  /-- For a tag in use, the command of its task plus 1 (0: none), and its partition. -/
  owner  : Tab (Nat × Nat) := []
  deriving DecidableEq, Repr

/-- A byte that a transfer reads or writes (R261, R265, R181). -/
inductive Place where
  /-- Offset in the drawer of a bench of this device. -/
  | drawer (bench off : Nat)
  /-- Host virtual address of the partition. -/
  | host (va : Nat)
  /-- Offset in the drawer of a bench of another device. -/
  | remote (dev bench off : Nat)
  /-- Host virtual address used by another device's owner of a distributed tensor (R266). -/
  | remoteHost (dev va : Nat)
  /-- Offset in the destination rack slot of the unit, at every target (R297, R316). -/
  | dslot (off : Nat)
  deriving DecidableEq, Repr

/-- A bit of a place: bit `bit` of the byte there, and the bits above it and in the bytes that follow. -/
structure BitPlace where
  place : Place
  bit   : Nat
  deriving DecidableEq, Repr

/-- Where an element of a tensor lies: its byte or its bit of plane 0, and its scale for an MX type (R254, R253). -/
structure ELoc where
  at_   : BitPlace
  scale : Option Place
  deriving DecidableEq, Repr

/-- The element type of one side of a stream, its planes, and their distance in bytes (R251, R254, R255). -/
structure TySel where
  ty      : Nat
  hi      : Nat
  lo      : Nat
  pstride : Nat
  deriving DecidableEq, Repr

/-- What one transfer of a stream moves (R308). A side that is absent reads as 0 or is not written (R300). -/
inductive Piece where
  /-- A run of `bits` bits of one type, contiguous on both sides. -/
  | copy (unit : Nat) (src dst : Option BitPlace) (bits : Nat)
  /-- Elements of a converting stream, or of a SCATTER_ADD in the type `add`. -/
  | conv (unit : Nat) (src dst : TySel) (add : Option AccTy) (els : List (Option ELoc × Option ELoc))
  /-- A run of `n` bytes of host memory that WARM reads (R315). -/
  | warm (unit : Nat) (va n : Nat)
  deriving DecidableEq, Repr

/-- A run of bytes that a transfer reads or writes: `n` bytes from `place`, of which the bits below `lo` of
the first byte and above `hi` of the last are not part. -/
structure Run where
  place  : Place
  n      : Nat
  lo     : Nat := 0
  hi     : Nat := 7
  data   : Option (List Byte) := none
  poison : Bool := false
  /-- The request for it has left. -/
  sent   : Bool := false
  /-- The physical address that the Fence gave for a host run (R464). -/
  pa     : Nat := 0
  /-- Reading: its RSP done has come; writing: its grant has come and its data have left (R383). -/
  told   : Bool := false
  /-- Times that it was sent again after a CRC mismatch, a landing fault or the watchdog (R402, R403). -/
  tries  : Nat := 0
  /-- Its bytes and its answer have come. -/
  done   : Bool := false
  deriving DecidableEq, Repr

/-- What an MSG or remote DOW instruction asks (R181, R184). -/
inductive MsgOp where
  | put | get | accum (ty : AccTy) | post (w0 w1 : Word)
  | dowel (op : Nat) (index : Nat) (v : Word)
  deriving DecidableEq, Repr

/-- Whether a transfer still reads, writes, or has all its answers (R306). -/
inductive Stage where
  | reading | writing | complete
  deriving DecidableEq, Repr

/-- A transfer in flight under a tag: of a stream, or of an MSG or remote DOW (R308, R181, R184). -/
structure Xfer where
  tag    : Nat
  /-- Order in which the transfers of the bench were issued. -/
  order  : Nat
  /-- The stroke of its issue (R77). -/
  born   : Nat := 0
  stream : Option Nat := none
  piece  : Option Piece := none
  msg    : Option MsgOp := none
  /-- Target device of an MSG or remote DOW. -/
  dev    : Nat := 0
  /-- Drawer address of the message block of an MSG; 0 for a dowel operation, which has none. -/
  addr   : Nat := 0
  part   : Nat := 0
  cmd    : Nat := 0
  secure : Bool := false
  reads  : List Run := []
  writes : List Run := []
  stage  : Stage := .reading
  status : Nat := 0
  poison : Bool := false
  /-- How its host reads meet the Veneer cache: they allocate in the partition's ways (R316). -/
  cached : Bool := false
  /-- Its writes leave as one multicast (R316, R387). -/
  mcast  : Bool := false
  /-- Times that the response watchdog sent it again (R443). -/
  tries  : Nat := 0
  /-- For a piece of a message above 4 KiB: the message's own tag, and the piece's number (R418). -/
  parent : Option Nat := none
  pno    : Nat := 0
  /-- For a message's own tag: the lowest failing piece and its status (R418). -/
  worst  : Option (Nat × Nat) := none
  deriving DecidableEq, Repr

/-- A stream (R295, R304, R310). -/
structure Stream where
  /-- Order number of its SGO in its bench, and in the device (R322). -/
  id       : Nat
  born     : Nat := 0
  tag      : Nat
  /-- Drawer address of the next descriptor of the chain, and how many remain after the first was read. -/
  nextDesc : Nat
  remain   : Nat := 0
  /-- No descriptor of the chain has been fetched yet. -/
  fresh    : Bool := true
  /-- Descriptors of the present burst that have not run (R312); an empty one lies beyond the drawer. -/
  burst    : List (List Byte) := []
  /-- Host addresses and bytes of the tensor descriptors that the previous descriptor named (R312). -/
  prevTd   : List (Nat × List Byte) := []
  /-- The descriptor in force (64 bytes) and the tensor descriptors of its source and destination. -/
  desc     : Option (List Byte × List Byte × List Byte) := none
  /-- Next unit to start, and the number of units. -/
  unit     : Nat := 0
  units    : Nat := 0
  /-- Pieces of the units started that have not been issued. -/
  work     : List Piece := []
  part     : Nat
  cmd      : Nat
  /-- The task ran in secure mode at its SGO. -/
  secure   : Bool
  poison   : Bool := false
  /-- The lowest failing unit and its status (R323). -/
  fail     : Option (Nat × Nat) := none
  /-- Its own tag has carried its first transfer (R308). -/
  tagUsed  : Bool := false
  srcRack  : Option Nat := none
  dstRack  : Option Nat := none
  /-- Racks that it holds until its tag completes: whether as a destination, the bench and the rack (R289). -/
  holds    : List (Bool × Nat × Nat) := []
  /-- Benches whose rack `dstRack` is the destination: the issuing bench, or the MCAST targets (R316). -/
  targets  : List Nat := []
  /-- Destination slots reserved and not committed: (bench, counter, unit). -/
  slots    : List (Nat × Nat × Nat) := []
  /-- Source slots taken and not released: (counter, unit). -/
  taken    : List (Nat × Nat) := []
  /-- Units whose data carries poison, and units of which a transfer failed or was not issued (R323). -/
  poisoned : List Nat := []
  broken   : List Nat := []
  /-- The deadline of the bench cancelled its unissued transfers (R77, R322). -/
  cut      : Bool := false
  deriving DecidableEq, Repr

/-- An entry of a bench's mailbox (R558). -/
structure MailEntry where
  dev   : DevId
  bench : Bench7
  w0    : Word
  w1    : Word
  deriving DecidableEq, Repr

/-- Bytes of a bench's drawer that a stream has written and that its Jig core does not see yet (R305): the bench and the order number
of the stream, its tag, and the bytes. -/
structure Unseen where
  bench  : Nat
  stream : Nat
  tag    : Nat
  off    : Nat
  n      : Nat
  deriving DecidableEq, Repr

/-- What the check bits of a word show (R348, R349): one wrong bit, an uncorrectable error, or poison. -/
inductive Ecc where
  | ok | single | double | poison
  deriving DecidableEq, Repr

/-- The state of a bench's plane engine (R363, R364). -/
inductive PlaneRun where
  | none
  /-- A preserving run that waits for every context to be EMPTY. -/
  | waiting
  | running (preserving : Bool)
  deriving DecidableEq, Repr

/-- A bench (R28, R29). -/
structure Bench where
  /-- Contexts 0 to 3. -/
  ctxs    : Tab Ctx := []
  /-- The context that runs or stalls. -/
  cur     : Option Nat := none
  /-- The context that ran last (R115). -/
  last    : Nat := 3
  /-- The running context has come from the context store, and what that read met is not yet reported (R368, R369). -/
  switched : Bool := false
  jvec    : Word := 0x00400000
  jsvec   : Word := 0x00400000
  jipend  : Word := 0
  /-- The patch buffer, oldest entry first: offset in the instruction drawer and word (R122). -/
  patch   : List (Nat × Word) := []
  /-- The branch predictor: 64 two-bit counters (R105, R139). -/
  pred    : Tab (BitVec 2) := []
  /-- Instructions issued and not committed, oldest first: those that take time, and predicted branches (R143, R107). -/
  flight  : List Op := []
  /-- Number of the next window load. -/
  nextLoad : Nat := 0
  /-- The two speculation buffers (R188). -/
  spec    : Tab SpecBuf := []
  boards  : Tab Board := []
  glue    : Glue := {}
  slots   : Tab Slot := []
  applied : Applied := {}
  drawer  : Mem := []
  idrawer : Mem := []
  /-- Words whose check bits do not decode as plain data, keyed by memory (R348): see `eccKey`. -/
  ecc     : Tab Ecc := []
  /-- Words (by `eccKey`) with a permanent fault: a write-back to them fails its verify read (R633). -/
  stuck   : List Nat := []
  /-- Words queued for their scrubber (R633, R369). -/
  scrubQ  : List Nat := []
  /-- Scrubber positions, by memory, and by quarter of the drawer the row of the next forced cycle (R354, R355, R371). -/
  scrubAt : Tab Nat := []
  scrubRow : Tab Nat := []
  /-- Corrections since the last MEM_CORRECTED entry, and the stroke of that entry, by memory (R642). -/
  corrN   : Tab Nat := []
  corrAt  : Tab (Option Nat) := []
  mailbox : List MailEntry := []
  /-- The place of the head entry in the 16 places of the mailbox, for its check bits (R585). -/
  mailAt  : Nat := 0
  /-- What streams have written to the drawer and the Jig core does not see yet (R305). -/
  unseen  : List Unseen := []
  racks   : Tab Rack := []
  tags    : Tags := {}
  streams : List Stream := []
  xfers   : List Xfer := []
  /-- Pieces of messages that wait for a free tag (R418). -/
  msgQ    : List Xfer := []
  /-- Order numbers of the next SGO and the next transfer; the stream that issued last (R310). -/
  nextStream : Nat := 0
  nextXfer   : Nat := 0
  lastIssued : Nat := 0
  /-- Port B cycles that host read, host write and remote still use of the present round of the split and of later ones, and the
  number of the round in the stroke (R56). -/
  splitUsed : Nat × Nat × Nat := (0, 0, 0)
  round   : Nat := 0
  /-- Physical faults that ECC does not cover (R248): lanes of the fabric and of the transpose engine with the bits that they
  invert, and settings (by image bit) that the solver inverts. -/
  badFabric : List (Nat × Nat) := []
  badTranspose : List (Nat × Nat) := []
  badSolver : List Nat := []
  /-- Stopped at a boundary: the drain of R77 runs. -/
  draining : Bool := false
  /-- The clear of R513 runs after the bench left a partition. -/
  clearing : Bool := false
  plane   : PlaneRun := .none
  /-- Every memory of the bench has passed a plane run (R140, R365). -/
  planeOk : Bool := false
  /-- Strokes of the last transient lockstep mismatch, uncorrectable word and CHECKSUM (R635), and that word. -/
  lockAt  : Option Nat := none
  uncorAt : Option (Nat × Nat) := none
  sumAt   : Option Nat := none
  /-- Boundaries left until a commanded retirement or a cancellation of its tasks (R615, R513). -/
  retireIn : Option Nat := none
  cancelIn : Option Nat := none
  /-- The partition from whose mask it was removed, while its tasks are being cancelled (R513). -/
  leaving : Option Nat := none
  /-- Cycles since the stroke began at the WSTROKE after which no task was READY (R591). -/
  slackAt : Option Nat := none
  /-- Instructions that it has issued in the present stroke (R591). -/
  issued  : Nat := 0
  deriving DecidableEq, Repr


/-! ## Partitions, commands and events -/

/-- Where a fetched command stands (R565, R566). -/
inductive CmdStage where
  /-- Fetched: not yet validated. -/
  | fetched
  /-- A RUN that has passed validation and waits for its start, its context reserved (R565). -/
  | reserved
  /-- A RUN whose tasks are loaded, or a command that has started. -/
  | running
  deriving DecidableEq, Repr

/-- A command that the dispatcher has fetched and not completed (R530, R564). -/
structure Cmd where
  /-- Its count in the command rack. -/
  id     : Nat
  /-- The 64 bytes of its descriptor. -/
  bytes  : List Byte
  stage  : CmdStage := .fetched
  /-- RUN: benches whose task has not ended; benches whose context is reserved. -/
  live   : BitVec 128 := 0
  /-- Lowest bench that caused each of FAULT and DEADLINE, and the bench that left the mask (R535, R536). -/
  fault  : Option Nat := none
  late   : Option Nat := none
  left   : Option Nat := none
  cancelled : Bool := false
  poison : Bool := false
  /-- RUN: the rack images that its validation read, by rack (R532). -/
  imgs   : List (Nat × List Byte) := []
  deriving DecidableEq, Repr

/-- A completion that waits for its number or for room in the rack (R534, R571). -/
structure Cpl where
  tag    : Word
  status : Nat
  err    : Nat
  op     : Nat
  bench  : Nat
  index  : Nat
  irq    : Bool
  /-- The command's count. -/
  id     : Nat
  /-- The number that the arbiter assigned. -/
  seq    : Option Word := none
  deriving DecidableEq, Repr

/-- What a report to the event arbiter is about (R560). -/
inductive ReportKind where
  /-- An event-log event: code, INFO0 to INFO2, and the log it goes to; `none`: every enabled log. -/
  | log (code : Nat) (i0 i1 i2 : Word) (part : Option Nat)
  /-- The completion of a command of a partition, by the command's count. -/
  | cpl (part : Nat) (id : Nat)
  /-- A cause with no event of its own: HALT, or FENCE of the log's own entry (R560). -/
  | bare
  deriving DecidableEq, Repr

/-- A report that waits for the arbiter (R560). -/
structure Report where
  source : BitVec 8
  kind   : ReportKind
  /-- Bits of GLB_FAULT_SUMMARY that the number's assignment sets (R506). -/
  fault  : Nat := 0
  deriving DecidableEq, Repr

/-- A partition: its configuration items (R512), its window registers (R518) and its dispatcher state. -/
structure Tenant where
  enable   : Bool := false
  secAllow : Bool := false
  waysAllowed : BitVec 16 := 0
  mask     : BitVec 128 := 0
  /-- Slots owned, by port (R512, R547). -/
  slots    : Tab (BitVec 64) := []
  cmdEn    : Bool := false
  evlogEn  : Bool := false
  haltWhy  : Nat := 0
  halted   : Bool := false
  /-- Boundaries left until the forced stop of a CANCEL; CANCELLING reads 1 while it is `some` (R572). -/
  cancel   : Option Nat := none
  /-- Commands fetched before the CANCEL: those below this count complete CANCELLED (R572). -/
  cancelTo : Nat := 0
  cfgerr   : Nat := 0
  rt       : Bool := false
  rtActive : Bool := false
  preset   : BitVec 2 := 0
  presetActive : BitVec 2 := 0
  cmdBase  : Nat := 0
  cmdSize  : Nat := 0
  cmdHead  : Word := 0
  cmdTail  : Word := 0
  cplBase  : Nat := 0
  cplSize  : Nat := 0
  cplHead  : Word := 0
  cplTail  : Word := 0
  irqAddr  : Nat := 0
  irqData  : Word := 0
  irqMask  : BitVec 5 := 0x1F
  irqStatus : BitVec 5 := 0
  /-- An interrupt message is in flight: no further one leaves before its WR_ACK (R479, R480). -/
  irqSent  : Bool := false
  /-- A trigger arrived while it was in flight (R480). -/
  irqAgain : Bool := false
  xroot    : Nat := 0
  xspan    : Nat := 48
  xen      : Bool := false
  invBusy  : Bool := false
  faultAddr : Nat := 0
  faultInfo : Word := 0
  ways     : BitVec 16 := 0
  waysBusy : Bool := false
  /-- Ways that the running invalidation affects (R344). -/
  waysInv  : BitVec 16 := 0
  missCount : Word := 0
  oob      : Word := 0
  evBase   : Nat := 0
  evSize   : Nat := 0
  evHead   : Word := 0
  dowelOp  : BitVec 2 := 0
  dowelIdx : BitVec 5 := 0
  energy   : Word := 0
  /-- Energy attributed and not yet a whole microjoule of TEN_ENERGY, in femtojoules (R605). -/
  energyFj : Nat := 0
  cmds     : List Cmd := []
  cpls     : List Cpl := []
  /-- Plans that wait for their activation stroke (R68), in the order in which they were loaded. -/
  newPlans : List (DWord × List DWord) := []
  /-- The slots owned at the last boundary: entries that use others are inactive (R514). -/
  slotsUse : Tab (BitVec 64) := []
  plan     : List DWord := []
  /-- Pairs of entries whose PLAN_MULTI_HIT was logged since the activation (R53). -/
  planHits : List (Nat × Nat) := []
  /-- Remote-wait records: device, bench, dowel index (R552). -/
  remote   : List (Nat × Nat × Nat) := []
  deriving DecidableEq, Repr

/-- A dowel (R552). -/
structure Dowel where
  count  : Word := 0
  target : Word := 0
  waits  : BitVec 128 := 0
  deriving DecidableEq, Repr

/-! ## The network on chip -/

/-- An endpoint (R374). -/
inductive Endp where
  | bench (b : Nat)
  | hpp (m : Nat)
  | foreman
  | slice (i : Nat)
  | port (p : Nat)
  deriving DecidableEq, Repr

/-- What packets act for (R383): run `run` of the writes or the reads of the transfer under a tag of a bench, or a message from
another device under its number at a port; and how often it has been sent again. -/
structure Ask where
  who   : Endp
  tag   : Nat
  write : Bool := false
  run   : Nat := 0
  tries : Nat := 0
  deriving DecidableEq, Repr

/-- What a packet asks, answers or carries (R383). -/
inductive Body where
  /-- REQ: a load or a store through a bench window (R146). -/
  | load (off size : Nat) (sx : Bool) (id : Nat)
  | store (off size : Nat) (v : Word)
  /-- REQ: an operation of the dowel unit, for a bench's DOW or dowel window under the number of the load (R556), or for a message. -/
  | dowel (op index : Nat) (v : Word) (id : Nat)
  /-- REQ: a read, a write request, and a POST or DOW. -/
  | read (o : Ask)
  | write (o : Ask)
  | op (o : Ask)
  /-- REQ: a read of the Veneer cache, from a module to a slice, and a slice's read of missing lines, back to the module. -/
  | look (o : Ask)
  | miss (o : Ask)
  /-- RSP: the word of a load or the result of a dowel operation, a grant, and the end with its status. -/
  | word (id : Nat) (v : Word)
  | grant (o : Ask)
  | done (o : Ask) (status : Nat)
  /-- DAT: the data of a read, of a write, of a fill, and of a multicast. -/
  | data (o : Ask) (bytes : List Byte) (poison : Bool)
  | wdata (o : Ask)
  | fill (o : Ask) (bytes : List Byte) (poison : Bool)
  | mdata (o : Ask)
  /-- SNP: a snoop of a physical line, and its reply (R385). -/
  | snoop (line : Nat)
  | reply (line : Nat)
  deriving DecidableEq, Repr

/-- A packet of a mesh (R377): its number, its endpoints (several for a multicast), its virtual network or channel, its tags, its AGE
(R389), how many flits it has, how many of them have not entered the first router, and how many copies have not been ejected. -/
structure Pkt where
  uid    : Nat
  src    : Endp
  dst    : List Endp
  vc     : Nat := 0
  part   : Nat
  secure : Bool := false
  age    : Nat := 0
  flits  : Nat := 1
  left   : Nat := 1
  due    : Nat := 1
  body   : Body
  deriving DecidableEq, Repr

/-- The NoC (R375): the packets of each mesh in the order of their injection; the flits in the input buffers of the routers, each by its
packet's number and its own; the transfer that holds an output's virtual channel (R379) and the input that last won an output (R390);
the landings that targets have reserved (R384); faults reported to the Foreman that have no event (R400 to R403); and what has been
repaired or has died (R634, R638). -/
structure Noc where
  req    : List Pkt := []
  rsp    : List Pkt := []
  snp    : List Pkt := []
  dat    : List Pkt := []
  next   : Nat := 0
  buf    : Tab (List (Nat × Nat)) := []
  hold   : Tab (Option Nat) := []
  turn   : Tab Nat := []
  landings : List (Endp × Ask × Nat) := []
  told   : Nat := 0
  /-- Links whose spare wire is in use, and dead links. -/
  spares : List NocLink := []
  dead   : List NocLink := []
  deriving DecidableEq, Repr

/-! ## Molarga -/

/-- A message to another device (R417): its MOP, target device, the four header words and its data. -/
structure OutMsg where
  mop  : Nat
  dev  : Nat
  part : Nat
  w0   : Word
  w1   : Word
  w2   : Word
  w3   : Word
  data : List Byte := []
  poison : Bool := false
  /-- The device that issued it: this one, or another one whose message is forwarded. -/
  src  : Option Nat := none
  /-- The virtual channel on which it arrived: its flits stand in that buffer of their input port (R415). -/
  inVc : Option Nat := none
  deriving DecidableEq, Repr

/-- A flit that a port sends (R412). -/
structure Flit where
  kind : Nat
  vc   : Nat
  cred : Bool
  poison : Bool := false
  seq  : Nat := 0
  dest : Nat
  src  : Nat
  slot : Nat := 0
  part : Nat
  payload : List Byte
  /-- The last flit of an ORIGIN slot: the bench and the rack whose slot is released when it leaves (R320). -/
  frees : Option (Nat × Nat) := none
  /-- Its credit was taken when the request that it answers entered the NoC (R386). -/
  paid : Bool := false
  /-- The input port and the virtual channel whose buffer it leaves when it is sent, for a forwarded flit (R415). -/
  inp : Option (Nat × Nat) := none
  deriving DecidableEq, Repr

/-- A request from another device that a port serves on chip (R386, R383): its number, the port and the virtual channel by which its answer
leaves with the credits taken for it, and what has come back. -/
structure Served where
  num    : Nat
  msg    : OutMsg
  out    : Nat
  vc     : Nat
  paid   : Nat
  data   : Option (List Byte) := none
  poison : Bool := false
  told   : Bool := false
  tries  : Nat := 0
  deriving DecidableEq, Repr

/-- The training state of a port (R425); `off`: not enabled; `waiting`: back to DETECT after 1 ms;
`barred`: miswired or a gap, up to the next LINK_CONFIG (R426). -/
inductive LinkSt where
  | off | detect | identify | check | equalise | lock | measure | active | waiting | barred
  deriving DecidableEq, Repr

/-- A Molarga port. -/
structure Port where
  st      : LinkSt := .off
  /-- It retrains: its sequence numbers and buffers are kept (R436). -/
  retrain : Bool := false
  /-- Rate: 0 136 GBd, 1 68 GBd, 2 34 GBd (R422). -/
  rate    : Nat := 0
  peer    : Option TrainInfo := none
  /-- Consecutive training failures (R425). -/
  fails   : Nat := 0
  /-- Measured round trip in units of 0.05 ns (R44). -/
  rtt     : Option Nat := none
  /-- TIMING exchanges done in the MEASURE step, and the timestamp of the request in flight. -/
  timings : Nat := 0
  asked   : Option Word := none
  /-- Sequence number of the next flit sent, and the next one expected (R413). -/
  txSeq   : Nat := 0
  rxSeq   : Nat := 0
  /-- Sequenced flits that the peer has not acknowledged, oldest first. -/
  replay  : List Flit := []
  /-- Times that the oldest of them has been sent (R442). -/
  sends   : Nat := 0
  /-- NAK was sent for the next expected flit (R413). -/
  nakSent : Bool := false
  /-- Credits used up at the peer, by VC (R415). -/
  used    : Tab Nat := []
  /-- Flits that wait for a credit or for room in the replay buffer. -/
  queue   : List Flit := []
  /-- Racks (by bench) of which a slot has left whole and is to be released (R320). -/
  freed   : List (Nat × Nat) := []
  /-- Input ports and channels of forwarded flits that have left: their credits are to be returned (R415). -/
  back    : List (Nat × Nat) := []
  /-- Credits that it owes its peer, by virtual channel: flits that have left its buffers (R415). -/
  owed    : Tab Nat := []
  /-- Requests from other devices that it serves on chip, and those that wait for the credits of their answers, each with the
  channel and input that they hold (R386). -/
  serving : List Served := []
  waiting : List OutMsg := []
  nextServe : Nat := 0
  /-- The transit store of the output port (R416): each flit with the slot that it waits for and the partition and
  index of the TRANSIT entry that it matched. -/
  transit : List (Nat × Nat × Nat × Flit) := []
  /-- On-time flits sent in the present slot (R51). -/
  slotUsed : Nat := 0
  /-- The slot that the port is in. -/
  slotNow : Option Nat := none
  /-- Entries and the flits they have sent on time in the present slot: (partition, index, flits). -/
  sentOn  : List (Nat × Nat × Nat) := []
  /-- Strokes of the times it went down within 2^20 strokes (R442). -/
  downs   : List Nat := []
  /-- Uncorrectable codewords and replays since reset, for LINK_STATUS (R614). -/
  uncor   : Nat := 0
  replays : Nat := 0
  /-- Lowest eye margin last read (R436). -/
  margin  : Nat := 0
  /-- Permanently faulty (R442). -/
  dead    : Bool := false
  /-- TIMING_RSP blocks that wait for the guard of the slot: echoed timestamp and turnaround (R411). -/
  ctl     : List (Word × Word) := []
  /-- The last STROKE block that left: count, RANK, LEN, and rank and identifier of the master (R42). -/
  marker  : Option (DWord × Nat × Nat × Nat × Nat) := none
  /-- The tick-plan entries of the port are active since the boundary after its training (R74). -/
  planOn  : Bool := false
  deriving DecidableEq, Repr

/-- A dimension of the torus (R423). -/
structure Dim where
  size : Nat := 1
  line : Bool := false
  gap  : Nat := 0
  deriving DecidableEq, Repr

/-- The link configuration (R423), and the bypass (R420). -/
structure LinkCfg where
  linken : Bool := false
  bypass : Bool := false
  dims   : Tab Dim := []
  porten : BitVec 16 := 0
  maxrate : Word := 0
  marginMin : Nat := 0
  retrainEn : Bool := false
  /-- The bypass switches conduct (R421, R445). -/
  closed : Bool := true
  /-- Ports and slots for which PLAN_UNMATCHED was logged in the present stroke (R432). -/
  unmatched : List (Nat × Nat) := []
  /-- Request messages for benches or dowels of this device that wait in their port's channel buffer for the wake (R608). -/
  parked : List (Nat × OutMsg) := []
  /-- Scheduled flits that no port can carry now, each with the port that it came by (R54). -/
  held : List (Nat × Flit) := []
  deriving DecidableEq, Repr

/-! ## The host, the Host Parallel Port and the Veneer cache -/

/-- Host memory by physical address, as the host's coherence order holds it, with the ranges (both ends
included) that the host refuses or answers with poison: the environment's, held so that the device's own
reads have an answer (log 4). -/
structure HostMem where
  mem    : Mem := []
  refuse : List (Nat × Nat) := []
  poison : List (Nat × Nat) := []
  deriving DecidableEq, Repr

/-- A translation-cache entry (R465). -/
structure XEntry where
  part : Nat
  va   : Nat
  big  : Bool
  base : Nat
  r    : Bool
  w    : Bool
  x    : Bool
  ref  : Bool := true
  deriving DecidableEq, Repr

/-- What a host request is for (R459): a run of a transfer, the missing lines of a read of the Veneer cache, or the interrupt message
of a partition. -/
inductive HostUse where
  | run (o : Ask)
  | fill (o : Ask)
  | irq (part : Nat)
  deriving DecidableEq, Repr

/-- A request outstanding on a module (R451, R453). -/
structure HostReq where
  tag  : Nat
  use  : HostUse
  part : Nat
  pa   : Nat
  len  : Nat
  write : Bool
  keep : Bool := false
  poison : Bool := false
  data : List Byte := []
  /-- Its header has left: it had a credit (R454). -/
  sent : Bool := false
  /-- It was translated before the invalidation in progress (R468). -/
  old  : Bool := false
  deriving DecidableEq, Repr

/-- An HPP module (R447). -/
structure Hpp where
  /-- It has completed training. -/
  up     : Bool := false
  /-- It is marked down (R483). -/
  down   : Bool := false
  fails  : Nat := 0
  /-- Groups whose spare line is in use (R483). -/
  spares : List Nat := []
  /-- SEQ of the next frame, the last frame received in order, and the last acknowledged (R450). -/
  txSeq  : BitVec 12 := 0
  rxSeq  : BitVec 12 := 0xFFF
  acked  : BitVec 12 := 0xFFF
  /-- A NAK is owed to the host (R454). -/
  nakOwed : Bool := false
  /-- Frames are being sent again from this number (R454). -/
  resend : Option (BitVec 12) := none
  /-- Header credits used up (R454). -/
  used   : Nat := 0
  nextTag : Nat := 0
  reqs   : List HostReq := []
  /-- Translation cache (R465). -/
  xlat   : Tab XEntry := []
  /-- Pairs of entries whose XLAT_MULTI_HIT was logged (R467). -/
  hits   : List (Nat × Nat) := []
  deriving DecidableEq, Repr

/-- A line of the Veneer cache (R340, R345). -/
structure VLine where
  tag  : Nat
  ref  : Bool := true
  data : List Byte
  deriving DecidableEq, Repr

/-- A read of the Veneer cache in progress (R345, R346): for which run, the partition, the physical bytes, the lines that it has, the
missing lines that it fetches itself and whether each is to be installed (R367), and whether their host read has left. -/
structure Lookup where
  o     : Ask
  part  : Nat
  pa    : Nat
  n     : Nat
  got   : List (Nat × List Byte) := []
  fills : List (Nat × Bool) := []
  poison : Bool := false
  deriving DecidableEq, Repr

/-- The Veneer cache (R340). Lines are keyed by ((slice * 2048 + set) * 16 + way). -/
structure Veneer where
  lines : Tab VLine := []
  /-- A line was filled since the arrays were last cleared: what the ways without a line hold is open (log 8). -/
  used  : Bool := false
  /-- Reads in progress, in the order in which they reached their slices. -/
  looks : List Lookup := []
  /-- Errors of code words (R348): of data word `i` of a line by 16 times the line's key plus `i`, of its tag and state by the line's
  key plus 2^23. -/
  ecc   : Tab Ecc := []
  /-- Code words with a permanent fault: a verify read of them fails (R633). -/
  stuck : List Nat := []
  /-- By set, 1 more than the patrol pass in which it last showed an uncorrectable error; and the passes of each scrubber (R370). -/
  badAt : Tab Nat := []
  passes : Tab Nat := []
  /-- Sets and slices removed from allocation (R370, R642). -/
  gone  : List Nat := []
  goneSlices : List Nat := []
  /-- Scrubber position by slice, its tags 16 above its data, and corrections as in a bench (R354, R642). -/
  scrubAt : Tab Nat := []
  corrN   : Tab Nat := []
  corrAt  : Tab (Option Nat) := []
  /-- The cache has passed its plane run (R665). -/
  planeOk : Bool := false
  deriving DecidableEq, Repr

/-! ## The stroke -/

/-- The stroke reference (chapter 02). -/
structure Stroke where
  /-- STROKE_STATE (R41): 0 LOCAL, 1 ACQUIRE, 2 LOCKED, 3 MASTER, 4 HOLDOVER, 5 FREERUN. -/
  state  : Nat := 0
  count  : DWord := 0
  /-- GLB_TICK_COUNT_HI as the last read of LO latched it (R36). -/
  latch  : Word := 0
  lock   : Bool := false
  planEn : Bool := false
  rank   : BitVec 12 := 0xFFF
  role   : BitVec 2 := 0
  len    : Nat := 14
  /-- Stroke-reference cycles since the last boundary. -/
  cycle  : Nat := 0
  /-- The master that the device follows: its rank and identifier (R42, R43). -/
  master : Option (Nat × Nat) := none
  /-- A marker whose count is adopted at the next boundary (R62). -/
  adopt  : Option Marker := none
  /-- The offset of that marker after compensation, in 0.05 ns (R43, R64). -/
  adoptBy : Int := 0
  /-- A marker has arrived on a path in the present stroke; strokes of its own timing without one (R79). -/
  heard  : Bool := false
  silent : Nat := 0
  /-- The master that HOLDOVER lost (R79, R80). -/
  lost   : Option (Nat × Nat) := none
  /-- Strokes in HOLDOVER (R82). -/
  held   : Nat := 0
  /-- Strokes that a CANDIDATE in ACQUIRE has listened since a marker of a lower rank (R63). -/
  listened : Nat := 0
  /-- STROKE_LEN_MISMATCH was logged (R62). -/
  lenLogged : Bool := false
  /-- Offsets of the last markers on the primary and the redundant path after compensation, in 0.05 ns (R43, R76). -/
  primary : Option Int := none
  redundant : Option Int := none
  /-- Stroke of the last STROKE_PATH_MISMATCH (R76). -/
  pathAt : Option Nat := none
  /-- Offset still to be slewed, and the step that the present stroke makes, in stroke-reference cycles (R64). -/
  slew   : Int := 0
  stepBy : Int := 0
  /-- Stroke-reference cycles of the present stroke (R34, R64). -/
  span   : Nat := 16384
  /-- The tick plan is in use since the last boundary; FREERUN has suspended it (R82). -/
  planOn : Bool := false
  suspended : Bool := false
  deriving DecidableEq, Repr

/-- What a window of R596 leaves for the evaluation of a column: the lowest slack of its benches, none for a column
without one, whether a bench was stopped, and the lowest droop margin in mV (R599). -/
structure Window where
  slack   : Option Int := none
  stopped : Bool := false
  droop   : Option Int := none
  deriving DecidableEq, Repr

/-- A column: its clock and what its benches count (R35, R98, R595), and the Foreman's control of it (R595 to R604). -/
structure Column where
  /-- FREQ in units of 20 MHz: the clock that runs. -/
  freq : Nat := 100
  /-- The FREQ that the Foreman has decided (R597). -/
  target : Nat := 100
  /-- JSCYC: column cycles since the column last saw a boundary (R98, R134). -/
  cyc  : Nat := 0
  /-- Hundredths of a column cycle not yet counted. -/
  frac : Nat := 0
  /-- Commanded VDD_CORE in mV, and the tabled voltage at FREQ 100 (R595, R605, R630). -/
  mv    : Nat := 0
  mv100 : Nat := 0
  /-- Measured leakage of the column over one stroke, in femtojoules (R605): a measurement of the environment. -/
  leakFj : Nat := 0
  /-- Lowest droop margin of its monitors in the present stroke, in mV (R590): a measurement of the environment. -/
  droop : Option Int := none
  /-- The slack result of R596, the power cap and the thermal cap (R597); `tripped`: the thermal cap is a trip's (R604). -/
  loopFreq : Nat := 100
  pcap : Option Nat := none
  tcap : Option Nat := none
  tripped : Bool := false
  /-- The guard band in mV (R595, R599), and windows in a row without a margin below 25 mV. -/
  gb   : Nat := 30
  calm : Nat := 0
  /-- Windows left in which the loop does not lower the column (R596). -/
  hold : Nat := 0
  /-- The window that runs, and the one that waits for its evaluation (R596). -/
  win  : Window := {}
  ended : Option Window := none
  /-- The slack of the last window (R613). -/
  last : Window := {}
  /-- The cycle of the present stroke at which a voltage change has settled (R598, R719). -/
  settle : Nat := 0
  /-- VRC_ENA: the regulator is on (R704), and its telemetry has been lost: the column is held (R621, R720). -/
  vrcOn : Bool := false
  lost  : Bool := false
  /-- Retired for a regulator or column clock fault (R635, R704). -/
  retired : Bool := false
  /-- VMEAS and IMEAS of the last valid frame (R701). -/
  vmeas : Nat := 0
  imeas : Nat := 0
  deriving DecidableEq, Repr

/-! ## The device -/

/-- How far the device is: power, reset and the start-up order of R664. -/
inductive Phase where
  /-- No power: PWROK is low. -/
  | unpowered
  /-- In reset. -/
  | inReset
  /-- Start-up before the fuses are loaded, before the clear has ended, before the plane run has ended,
  and before the boot image check has ended. -/
  | fuses | clear | planes | boot
  | running
  deriving DecidableEq, Repr

/-- Rest (R606 to R610). -/
inductive Rest where
  | awake | requested | resting | waking
  deriving DecidableEq, Repr

/-- Identity, power state and service state of the device. -/
structure Dev where
  phase  : Phase := .fuses
  rest   : Rest := .awake
  /-- The boot image check has ended (R661). -/
  bootDone : Bool := false
  /-- What woke the device (R609). -/
  wakeSrc : Nat := 0
  /-- The partition of a doorbell that woke it (R594). -/
  wakePart : Nat := 0
  clamped : Bool := false
  /-- The usable benches: GLB_BENCH_FUSE0 to 3 (R496). -/
  usable : BitVec 128 := 0
  /-- The device identifier (R407, R423). -/
  id     : DevId := 0xFFF
  /-- GLB_LIFECYCLE.STATE (R500, R630). -/
  lifecycle : Nat := 0
  /-- The fuse array (R629) of a part as shipped, PROVISIONED (R24; log 5), and its words 0 to 3 as loaded at the last reset (R494, R495). -/
  fuses  : Tab Word :=
    [(0, 0x128), (1, 1), (3, 0x0800006E), (4, 0xFFFFFFFF), (5, 0xFFFFFFFF), (6, 0xFFFFFFFF), (7, 0xFFFFFFFF), (8, 1),
     (9, 0x00AF6419), (10, 0x00AF6419), (11, 0x00AF6419), (12, 0x00AF6419), (13, 0x00AF6419), (14, 0x00AF6419),
     (15, 0x00AF6419), (16, 0x00AF6419), (17, 0x00AF6419), (18, 0x00AF6419), (19, 0x00AF6419), (20, 0x00AF6419),
     (21, 0x00AF6419), (22, 0x00AF6419), (23, 0x00AF6419), (24, 0x00AF6419), (39, 0x06B7104F)]
  ids    : List Word := []
  /-- The fuse array failed its CRC: every lifecycle permission is that of BLANK (R641). -/
  fuseBad : Bool := false
  /-- Sources of tamper that are asserted (R643, R644). -/
  tamper : List TamperSrc := []
  /-- GLB_FAULT_SUMMARY (R506). -/
  faults : Word := 0
  /-- Resets in a row for want of a Foreman majority at step 1, and whether the device is held in reset for it (R686). -/
  fmTries : Nat := 0
  fmHeld  : Bool := false
  /-- RESET_N is low (R655, R673). -/
  resetLow : Bool := false
  /-- Resets so far: the seal key is drawn anew at each (R272). -/
  epoch  : Nat := 0
  deriving DecidableEq, Repr

/-- The plane engine: GLB_MBIST_CTL (R362), and whether the present run tests the Veneer cache. -/
structure Mbist where
  busy   : Bool := false
  fail   : Bool := false
  mode   : Nat := 0
  all    : Bool := false
  mem    : BitVec 4 := 0
  /-- The memories that the run in progress tests. -/
  runMem : BitVec 4 := 0
  failBench : Nat := 0xFF
  bench  : Nat := 0
  veneer : Bool := false
  deriving DecidableEq, Repr

/-- The global registers that hold state of their own (chapter 13). -/
structure Glb where
  /-- GLB_CTL.COH (R470), GPIO_IRQ and PINLOCK (R497). -/
  coh : Bool := false
  gpioIrq : Bool := false
  pinlock : Bool := false
  /-- GLB_PART_SEL (R511). -/
  selPart : Nat := 0
  selItem : Nat := 0
  selPort : Nat := 0
  /-- GLB_EVENT_SEQ (R505). -/
  seq : Word := 0
  /-- Entries of start-up events (FUSE_CRC, PLANE_FAIL, BENCH_RETIRED for a plane run) that wait for the first log to be
  enabled, as they read for partition 0 (R641, R665). -/
  late : List (List Byte) := []
  /-- GLB_RESET_CAUSE (R502). -/
  resetCause : BitVec 8 := 0
  /-- GLB_STATUS.FM_LANES, CLEAR_DONE and PLANE_DONE (R499). -/
  fmLanes : BitVec 3 := 7
  clearDone : Bool := false
  planeDone : Bool := false
  /-- GLB_POWER_CTL (R503). -/
  fmax : Nat := 110
  fmin : Nat := 60
  plimit : Nat := 300
  /-- GLB_THERM_STATUS (R504). TMAX is undefined at reset (log 10). -/
  alertT : Nat := 95
  trip : Bool := false
  alert : Bool := false
  throttle : Bool := false
  sensor : Nat := 0
  tmax : Byte := 0
  /-- GLB_PINMUX (R507). -/
  pinmux : Word := 0
  /-- GLB_FOREMAN_MBOX (R508, R509): the block address, and what a read returns. -/
  mboxAddr : Nat := 0
  mboxBusy : Bool := true
  mboxDone : Bool := false
  mboxErr : Nat := 0
  mboxStatus : Nat := 0
  mboxOp : Nat := 0
  /-- A GO that waits for the wake or for the plane engine (R510, R617): its word, and what the plane run of a
  readmission will find. -/
  mboxGo : Option (Word × Option PlaneFail) := none
  /-- The bench whose commanded retirement the running command awaits (R615). -/
  mboxRetire : Option Nat := none
  /-- Pins in their parking window (R667). -/
  parking : List Nat := []
  /-- GLB_MBIST_CTL and the run in progress (R362). -/
  mbist : Mbist := {}
  /-- The trigger of the wipe in progress, as SECURE_WIPE_DONE gives it, and the bit of GLB_RESET_CAUSE of the
  reset that follows (R352, R644). -/
  wipe : Option Nat := none
  wipeReset : Option Nat := none
  /-- The state that a lifecycle transition in progress leads to: BUSY (R501). -/
  lifeTo : Option Nat := none
  /-- The last response of the Control Bus: CB_RESP and CB_RDATA (R455). -/
  resp : Nat × Word := (0, 0)
  deriving DecidableEq, Repr

/-- The Foreman's measurements and decisions (chapter 15). -/
structure Foreman where
  /-- Words 0 and 1 of the policy block in force (R592), and a block that waits for the next window. -/
  policy0 : Word := 0x00340100
  policy1 : Word := 100
  newPolicy : Option (Word × Word) := none
  /-- Strokes of the present window that have ended (R596). -/
  strokes : Nat := 0
  /-- Pace level (R601), and whether a trip set it (R604). -/
  pace : Nat := 0
  tripPace : Bool := false
  /-- Device power samples of the last 100 µs in mW, oldest first (R600). -/
  samples : List Nat := []
  /-- Stroke of the last POWER_LIMIT_UNMET (R600). -/
  unmetAt : Option Nat := none
  /-- Device energy in units of 10 nJ (R613). -/
  energy : Nat := 0
  /-- Sensor readings (R590, R713), sensors excluded, and readings in a row that differ from the neighbours' (R621). -/
  readings : Tab Byte := []
  excluded : List Nat := []
  strikes : Tab Nat := []
  /-- Reads of poison reported to it (R349). -/
  poisons : Nat := 0
  /-- Thermal checks since a column last stepped for heat (R604); every sensor is cool; a trip has not been released. -/
  checks : Nat := 0
  cool   : Bool := true
  trip   : Bool := false
  /-- Fan pulses of the present second, its stroke-reference cycles, and the pulses and pin of the last one (R590). -/
  fan     : Nat := 0
  fanTime : Nat := 0
  fanLast : Option (Nat × Nat) := none
  deriving DecidableEq, Repr

/-- The outcome of the boot image check (R660, R674). -/
structure Boot where
  version : Word := Config.romVersion
  source  : Nat := 0
  reason  : Nat := 0
  quad    : Bool := false
  deriving DecidableEq, Repr

/-- The JTAG port (R669 to R681): the instruction register, the data register as the last scan shifted it out, the
boundary cells as last updated, the location that CLAMPREAD latched, and whether a fuse word is being programmed. -/
structure Jtag where
  ir   : Nat := 0x01
  dr   : Nat := 0
  bsr  : Nat := 0
  loc  : Nat × Word := (0, 0)
  fuseBusy : Bool := false
  deriving DecidableEq, Repr

/-- The I3C port (R708 to R711): the dynamic address, OFFSET, and the bytes that it last returned. -/
structure I3c where
  dyn    : Option (BitVec 7) := none
  offset : Nat := 0
  sent   : List Byte := []
  deriving DecidableEq, Repr

/-! ## The whole block -/

/-- The state of the block. -/
structure State where
  benches : Tab Bench := []
  tens    : Tab Tenant := []
  dowels  : Tab Dowel := []
  noc     : Noc := {}
  links   : LinkCfg := {}
  ports   : Tab Port := []
  host    : HostMem := {}
  hpps    : Tab Hpp := []
  veneer  : Veneer := {}
  stroke  : Stroke := {}
  dev     : Dev := {}
  cols    : Tab Column := []
  glb     : Glb := {}
  foreman : Foreman := {}
  boot    : Boot := {}
  jtag    : Jtag := {}
  i3c     : I3c := {}
  /-- Reports that wait for the event arbiter, oldest first (R560). -/
  reports : List Report := []
  /-- Index of the next free value (log 6): the model's own field. -/
  free    : Nat := 0
  /-- Number of the next SGO of the device: the order in which streams hold racks (R322). -/
  nextSgo : Nat := 0
  /-- The commands that wait, first in, first out. -/
  pending : List Instr := []
  deriving DecidableEq, Repr

/-- The block right after a power-on reset has been released, at the start of step 1 of R664 (R544, R650, R656). -/
def State.reset : State := { glb := { resetCause := 1 } }

end Sys2Proof.Machine
end

