-- ==== Sys2Proof/Machine/Flags.lean ====
section
/-! DEFINITION. The fields of JSTAT, JMODE and JCAUSE (R93, R95, R96), and the writes that MTJ makes to
them (R92, R94). -/

namespace Sys2Proof.Machine

/-- User mode (R93). -/
abbrev mUser : BitVec 2 := 0
/-- Supervisor mode. -/
abbrev mSuper : BitVec 2 := 1
/-- Secure mode. -/
abbrev mSecure : BitVec 2 := 2

/-- MODE. -/
def Ctx.mode (c : Ctx) : BitVec 2 := c.jstat.extractLsb' 0 2
/-- PMODE. -/
def Ctx.pmode (c : Ctx) : BitVec 2 := c.jstat.extractLsb' 2 2
/-- IE. -/
def Ctx.ie (c : Ctx) : Bool := bit c.jstat 4
/-- PIE. -/
def Ctx.pie (c : Ctx) : Bool := bit c.jstat 5
/-- EXL. -/
def Ctx.exl (c : Ctx) : Bool := bit c.jstat 6
/-- DS. -/
def Ctx.ds (c : Ctx) : Bool := bit c.jstat 7
/-- PM. -/
def Ctx.pm (c : Ctx) : Bool := bit c.jstat 8
/-- PMTARGET. -/
def Ctx.pmtarget (c : Ctx) : BitVec 2 := c.jstat.extractLsb' 9 2
/-- LE. -/
def Ctx.le (c : Ctx) : Bool := bit c.jstat 11
/-- PLE. -/
def Ctx.ple (c : Ctx) : Bool := bit c.jstat 12
/-- GLU. -/
def Ctx.glu (c : Ctx) : Bool := bit c.jstat 15

/-- SEC_EN of JMODE (R95). -/
def Ctx.secEn (c : Ctx) : Bool := bit c.jmode 2
/-- BPDIS of JMODE. -/
def Ctx.bpdis (c : Ctx) : Bool := bit c.jmode 1
/-- UROT of JMODE. -/
def Ctx.urot (c : Ctx) : Bool := bit c.jmode 0

/-- JSTAT with bits `hi` to `lo` holding `v`. -/
def Ctx.setJ (c : Ctx) (hi lo v : Nat) : Ctx := { c with jstat := wput c.jstat hi lo v }
/-- JSTAT with MODE `m`. -/
def Ctx.setMode (c : Ctx) (m : BitVec 2) : Ctx := c.setJ 1 0 m.toNat
/-- JSTAT with GLU. -/
def Ctx.setGlu (c : Ctx) (v : Bool) : Ctx := c.setJ 15 15 (b2n v)

/-- JSTAT as MFJ reads it: with PBCNT and TASK (R93). -/
def jstatRead (c : Ctx) (pbcnt task : Nat) : Word := wput (wput c.jstat 19 16 pbcnt) 14 13 task

/-- A mode field after MTJ: `0b11`, and secure written by supervisor code, leave it (R94). -/
def mtjMode (cur : BitVec 2) (old new : Nat) : Nat :=
  if new = 3 ∨ (cur = mSuper ∧ new = 2) then old else new

/-- JSTAT after MTJ of `v` by an instruction that executes in mode `m`: the RW fields of R93, under R94. -/
def jstatWrite (c : Ctx) (m : BitVec 2) (v : Word) : Word :=
  let j := c.jstat
  let j := wput j 12 11 (wfld v 12 11)
  let j := wput j 10 9 (mtjMode m (wfld c.jstat 10 9) (wfld v 10 9))
  let j := wput j 8 4 (wfld v 8 4)
  wput j 3 2 (mtjMode m (wfld c.jstat 3 2) (wfld v 3 2))

/-- The kinds of entry of R96. -/
inductive EntryKind where
  | exception | interrupt | syscall
  deriving DecidableEq, Repr

/-- KIND of JCAUSE (R96). -/
def EntryKind.code : EntryKind → Nat
  | .exception => 0 | .interrupt => 1 | .syscall => 2
/-- The handler offset (R127). -/
def EntryKind.offset : EntryKind → Word
  | .exception => 0x00 | .interrupt => 0x40 | .syscall => 0x80

/-- A JCAUSE value (R96). -/
def jcauseOf (kind : EntryKind) (code info : Nat) (dlpend : Bool) : Word :=
  w32 (code + kind.code * 16 + info * 256 + b2n dlpend * 65536)

/-- The exception causes (R97). -/
abbrev exILLEGAL : Nat := 1
/-- PRIVILEGE. -/
abbrev exPRIV : Nat := 2
/-- ALIGN_FAULT. -/
abbrev exALIGN : Nat := 3
/-- FENCE_FAULT. -/
abbrev exFENCE : Nat := 4
/-- SHAPE_FAULT. -/
abbrev exSHAPE : Nat := 5
/-- PATCH_OVERFLOW. -/
abbrev exPATCH : Nat := 6
/-- CHECKSUM. -/
abbrev exSUM : Nat := 7
/-- DEADLINE. -/
abbrev exDEADLINE : Nat := 8
/-- LOCKSTEP. -/
abbrev exLOCK : Nat := 9

end Sys2Proof.Machine
end

