-- ==== Sys2Proof/Machine/Ops.lean ====
section
/-! DEFINITION. The named operations over benches, registers, partitions, reports and free values. -/

namespace Sys2Proof.Machine

/-- Bench `b`. -/
def State.bench (s : State) (b : Nat) : Bench := tget {} s.benches b
/-- The state with bench `b` replaced. -/
def State.setBench (s : State) (b : Nat) (v : Bench) : State := { s with benches := tset {} s.benches b v }
/-- Change bench `b`. -/
def State.modBench (s : State) (b : Nat) (f : Bench → Bench) : State := s.setBench b (f (s.bench b))
/-- Partition `p`. -/
def State.ten (s : State) (p : Nat) : Tenant := tget {} s.tens p
/-- The state with partition `p` replaced. -/
def State.setTen (s : State) (p : Nat) (v : Tenant) : State := { s with tens := tset {} s.tens p v }
/-- Change partition `p`. -/
def State.modTen (s : State) (p : Nat) (f : Tenant → Tenant) : State := s.setTen p (f (s.ten p))
/-- Dowel `d` of the device (R552). -/
def State.dowel (s : State) (d : Nat) : Dowel := tget {} s.dowels d
/-- Change dowel `d`. -/
def State.modDowel (s : State) (d : Nat) (f : Dowel → Dowel) : State := { s with dowels := tmod {} s.dowels d f }

/-- Context `n` of a bench. -/
def Bench.ctx (b : Bench) (n : Nat) : Ctx := tget {} b.ctxs n
/-- The bench with context `n` replaced. -/
def Bench.setCtx (b : Bench) (n : Nat) (c : Ctx) : Bench := { b with ctxs := tset {} b.ctxs n c }
/-- Change context `n`. -/
def Bench.modCtx (b : Bench) (n : Nat) (f : Ctx → Ctx) : Bench := b.setCtx n (f (b.ctx n))
/-- Board `n`. -/
def Bench.board (b : Bench) (n : Nat) : Board := tget {} b.boards n
/-- The bench with board `n` replaced. -/
def Bench.setBoard (b : Bench) (n : Nat) (v : Board) : Bench := { b with boards := tset {} b.boards n v }
/-- Pattern slot `n`. -/
def Bench.slot (b : Bench) (n : Nat) : Slot := tget {} b.slots n
/-- The bench with pattern slot `n` replaced. -/
def Bench.setSlot (b : Bench) (n : Nat) (v : Slot) : Bench := { b with slots := tset {} b.slots n v }
/-- Rack `n`. -/
def Bench.rack (b : Bench) (n : Nat) : Rack := tget {} b.racks n
/-- The bench with rack `n` replaced. -/
def Bench.setRack (b : Bench) (n : Nat) (v : Rack) : Bench := { b with racks := tset {} b.racks n v }

/-- A general register (R90). -/
def Ctx.reg (c : Ctx) (r : Reg) : Word := if r = 0 then 0 else tget 0 c.regs r.toNat
/-- Write a general register; g0 ignores writes (R90). -/
def Ctx.setReg (c : Ctx) (r : Reg) (v : Word) : Ctx :=
  if r = 0 then c else { c with regs := tset 0 c.regs r.toNat v }

/-- The context that a bench runs, by number. -/
def Bench.curN (b : Bench) : Nat := b.cur.getD 0
/-- The context that a bench runs. -/
def Bench.cc (b : Bench) : Ctx := b.ctx b.curN
/-- The running context of bench `b`. -/
def State.cc (s : State) (b : Nat) : Ctx := (s.bench b).cc
/-- Change the running context of bench `b`. -/
def State.modCc (s : State) (b : Nat) (f : Ctx → Ctx) : State := s.modBench b fun v => v.modCtx v.curN f

/-- The benches of the array, in order. -/
def allBenches : List Nat := List.range 128
/-- The partitions, in order. -/
def allParts : List Nat := List.range 8

/-- Whether bench `b` is usable (R2, R496). -/
def State.usable (s : State) (b : Nat) : Bool := s.dev.usable.getLsbD b
/-- The partition whose mask holds bench `b` (R549). -/
def State.partOf (s : State) (b : Nat) : Option Nat := allParts.find? fun p => (s.ten p).mask.getLsbD b
/-- The partition that bench `b` acts for: that of its mask, or the one it is leaving (R549, R513). -/
def State.actsFor (s : State) (b : Nat) : Nat :=
  match s.partOf b with
  | some p => p
  | none => (s.bench b).leaving.getD 0
/-- Whether bench `b` works in a real-time partition (R60). -/
def State.isRt (s : State) (b : Nat) : Bool := (s.ten (s.actsFor b)).rtActive
/-- The stroke count as a number. -/
def State.now (s : State) : Nat := s.stroke.count.toNat
/-- The device is powered, out of reset, not clamped and not in Rest: its domains run. -/
def State.alive (s : State) : Bool :=
  s.dev.phase != .unpowered && s.dev.phase != .inReset && !s.dev.clamped && s.dev.rest != .resting && s.dev.rest != .waking

/-- The ports and the stroke reference run: power, no reset, no clamp. Rest leaves them in service (R608). -/
def State.clocked (s : State) : Bool := s.dev.phase != .unpowered && s.dev.phase != .inReset && !s.dev.clamped

/-- Secure mode is available: the lifecycle permits it and no tamper source is asserted (R631, R641, R644). -/
def State.secureOk (s : State) : Bool :=
  !s.dev.fuseBad && (s.dev.lifecycle = 1 || s.dev.lifecycle = 2) && s.dev.tamper.isEmpty

/-- The next index of a free value. -/
def State.draw (s : State) : Nat × State := (s.free, { s with free := s.free + 1 })

/-- Hold a report for the event arbiter (R560). -/
def State.report (s : State) (r : Report) : State := { s with reports := s.reports ++ [r] }
/-- Report an event of the log of partition `p` (R542). -/
def State.log (s : State) (source : BitVec 8) (code : Nat) (p : Nat) (i0 i1 i2 : Word) : State :=
  s.report { source, kind := .log code i0 i1 i2 (some p) }
/-- Report an event of every enabled log (R542), with the fault bits that its number sets. -/
def State.logAll (s : State) (source : BitVec 8) (code : Nat) (i0 i1 i2 : Word) (fault : Nat := 0) : State :=
  s.report { source, kind := .log code i0 i1 i2 none, fault }
/-- SOURCE of a bench (R540). -/
def srcBench (b : Nat) : BitVec 8 := BitVec.ofNat 8 b
/-- SOURCE of the Foreman. -/
def srcForeman : BitVec 8 := 0x80
/-- SOURCE of a Molarga port. -/
def srcPort (p : Nat) : BitVec 8 := BitVec.ofNat 8 (0x90 + p)
/-- SOURCE of an HPP module. -/
def srcModule (m : Nat) : BitVec 8 := BitVec.ofNat 8 (0xA0 + m)
/-- SOURCE of the device. -/
def srcDevice : BitVec 8 := 0xFF

/-- Add to a counter that saturates at 0xFFFF_FFFF (R72, R277). -/
def satAdd (x : Word) (n : Nat) : Word := w32 (min (x.toNat + n) 0xFFFFFFFF)
/-- Count clamped indices of partition `p` (R277). -/
def State.oobAdd (s : State) (p n : Nat) : State := s.modTen p fun t => { t with oob := satAdd t.oob n }

/-- The column of a bench: 16 columns, 8 rows (R28). -/
def colOf (b : Nat) : Nat := b % 16
/-- Column `c`. -/
def State.col (s : State) (c : Nat) : Column := tget {} s.cols c
/-- Change column `c`. -/
def State.modCol (s : State) (c : Nat) (f : Column → Column) : State := { s with cols := tmod {} s.cols c f }

/-- Attribute energy to a partition, in femtojoules (R605). -/
def State.energy (s : State) (p fj : Nat) : State := s.modTen p fun t => { t with energyFj := t.energyFj + fj }
/-- The energy of bytes permuted by a bench: 0.45 pJ per byte, scaled by the square of the column voltage (R605, R243). The whole
operation counts when it starts, also where it is squashed or stopped before its end (DESIGN CHOICE, log 111). -/
def State.permEnergy (s : State) (b bytes : Nat) : State :=
  if bytes = 0 then s else
  let c := s.col (colOf b)
  s.energy (s.actsFor b) (450 * bytes * c.mv * c.mv / (c.mv100 * c.mv100))

/-- The energy of bytes that the Host Parallel Port moves for a partition: 0.35 pJ per bit (R605). -/
def State.hppEnergy (s : State) (p bytes : Nat) : State := s.energy p (2800 * bytes)
/-- The energy of a Molarga flit that the device sends or forwards: 2.9 pJ per bit of 256 bytes (R605). -/
def State.flitEnergy (s : State) (p : Nat) : State := s.energy p 5939200

/-- Set bits of JIPEND of bench `b` (R99). -/
def State.setPend (s : State) (b i : Nat) : State :=
  s.modBench b fun v => { v with jipend := v.jipend ||| w32 (2 ^ i) }

/-! ### Task selection (R112, R115) -/

/-- The next READY context in ascending number after `after`, wrapping (R115). -/
def Bench.nextReady (b : Bench) (after : Nat) : Option Nat :=
  [after + 1, after + 2, after + 3, after + 4].map (· % 4) |>.find? fun n => (b.ctx n).status = .ready

/-- An idle bench runs its next READY task (R115). -/
def Bench.pick (b : Bench) : Bench :=
  match b.cur with
  | some _ => b
  | none => match b.nextReady b.last with
    | none => b
    | some n =>
      { b with cur := some n, last := n, switched := true, slackAt := none }.modCtx n fun c => { c with status := .running, await := .nothing }

/-- Contexts whose wait `p` ends go on: a WAITING one becomes READY, a STALLED one runs (R112). -/
def Bench.wake (b : Bench) (p : Await → Bool) : Bench :=
  ([0, 1, 2, 3].foldl (fun b n =>
    let c := b.ctx n
    if p c.await then
      match c.status with
      | .waiting => b.setCtx n { c with status := .ready, await := .nothing }
      | .stalled => b.setCtx n { c with status := .running, await := .nothing }
      | _ => b
    else b) b).pick

/-! ### Memory and check bits (R348, R349) -/

/-- Memories by the site codes of R642. -/
abbrev siteDrawer : Nat := 0
/-- Instruction drawer. -/
abbrev siteIdrawer : Nat := 1
/-- Board file: boards, then glue-up, then speculation buffers. -/
abbrev siteBoards : Nat := 2
/-- Pattern slots. -/
abbrev siteSlots : Nat := 3
/-- Mailbox. -/
abbrev siteMailbox : Nat := 6
/-- Context store. -/
abbrev siteContext : Nat := 7

/-- The key of the code word at byte address `a` of a memory: 32-bit words, or 64-bit words of the board file and slots. -/
def eccKey (site a : Nat) : Nat :=
  site * 2 ^ 24 + (if site = siteBoards ∨ site = siteSlots then a / 8 else a / 4)

/-- The byte address of the code word with a key, as fault events give it (R642). -/
def keyAddr (site key : Nat) : Nat := (if site = siteBoards ∨ site = siteSlots then 8 else 4) * (key % 2 ^ 24)

/-- The code words with errors among the bytes `lo` to `lo + n - 1` of a memory. -/
def Bench.eccIn (b : Bench) (site lo n : Nat) : List (Nat × Ecc) :=
  if n = 0 then [] else
    b.ecc.filter fun e => decide (eccKey site lo ≤ e.1) && decide (e.1 ≤ eccKey site (lo + n - 1))

/-- Whether any of the words decodes as poisoned or uncorrectable. -/
def eccBad (l : List (Nat × Ecc)) : Bool := l.any fun e => e.2 = .double || e.2 = .poison

/-- Write bytes to a memory's check bits: whole code words written without poison become plain data; a part of
a poisoned or uncorrectable word leaves it poisoned (R331). -/
def eccWrite (t : Tab Ecc) (site lo n : Nat) (poison : Bool) : Tab Ecc :=
  let u := if site = siteBoards ∨ site = siteSlots then 8 else 4
  (List.range ((lo + n + u - 1) / u - lo / u)).foldl (fun t i =>
    let a := u * (lo / u + i)
    let k := eccKey site a
    let whole := decide (lo ≤ a ∧ a + u ≤ lo + n)
    let old := tget Ecc.ok t k
    let new : Ecc := if poison then .poison
      else if whole then .ok
      else if old = .double ∨ old = .poison then .poison else .ok
    tset .ok t k new) t

/-- Write bytes to a drawer, with their check bits (R331, R349). -/
def Bench.writeDrawer (b : Bench) (a : Nat) (bytes : List Byte) (poison : Bool := false) : Bench :=
  { b with drawer := b.drawer.setBytes a bytes, ecc := if b.ecc = [] ∧ poison = false then [] else eccWrite b.ecc siteDrawer a bytes.length poison }

/-- Write bytes to an instruction drawer, with their check bits. -/
def Bench.writeIdrawer (b : Bench) (a : Nat) (bytes : List Byte) (poison : Bool := false) : Bench :=
  { b with idrawer := b.idrawer.setBytes a bytes, ecc := if b.ecc = [] ∧ poison = false then [] else eccWrite b.ecc siteIdrawer a bytes.length poison }

/-! ### What the Jig core sees of a stream's writes (R305) -/

/-- The parts of a run of bytes outside `n` bytes from `off`. -/
def Unseen.minus (u : Unseen) (off n : Nat) : List Unseen :=
  if u.off + u.n ≤ off ∨ off + n ≤ u.off then [u]
  else (if u.off < off then [{ u with n := off - u.off }] else []) ++
    (if off + n < u.off + u.n then [{ u with off := off + n, n := u.off + u.n - (off + n) }] else [])

/-- The Jig core sees the bytes `off` to `off + n - 1` of the drawer from now on. -/
def Bench.see (v : Bench) (off n : Nat) : Bench := { v with unseen := v.unseen.flatMap fun u => u.minus off n }

/-- A stream has written bytes of the drawer, which the Jig core does not see yet (R305). -/
def Bench.hide (v : Bench) (u : Unseen) : Bench := { v.see u.off u.n with unseen := (v.see u.off u.n).unseen ++ [u] }

/-- Bytes of the drawer as the Jig core reads them: what a stream has written and the core does not see yet is undefined (R305). -/
def State.jread (s : State) (b off n : Nat) : State × List Byte :=
  let v := s.bench b
  let hid := v.unseen.filter fun u => decide (u.off < off + n) && decide (off < u.off + u.n)
  if hid.isEmpty then (s, v.drawer.getBytes off n)
  else
    let (k, s) := s.draw
    (s, (v.drawer.getBytes off n).mapIdx fun i x =>
      if hid.any fun u => decide (u.off ≤ off + i) && decide (off + i < u.off + u.n) then Config.freeByte k (off + i) else x)

/-- The access touches bank 15 while the wipe of the secure region runs: it waits (R352, R367). -/
def State.wipeHolds (s : State) (off n : Nat) : Bool := s.glb.wipe.isSome && decide (0x1E0000 < off + n)

/-- Write the patch buffer to the instruction drawer, oldest entry first (R124, R126). -/
def Bench.flushPatch (b : Bench) : Bench :=
  { b.patch.foldl (fun b e => b.writeIdrawer e.1 (leBytes 4 e.2.toNat)) b with patch := [] }

/-! ### Releasing boards (R164, R194, R197) -/

/-- Release board `n` of bench `b`: a marked one is zeroed, an unmarked one becomes undefined. -/
def State.releaseBoard (s : State) (b n : Nat) : State :=
  let bd := (s.bench b).board n
  if bd.secure then
    s.modBench b fun v => v.setBoard n { bd with data := {}, owner := none, secure := false }
  else
    let (k, s) := s.draw
    s.modBench b fun v => v.setBoard n { bd with data := { cells := [], undef := some k }, owner := none }

/-- Release the glue-up of bench `b`. -/
def State.releaseGlue (s : State) (b : Nat) : State :=
  if (s.bench b).glue.secure then s.modBench b fun v => { v with glue := {} }
  else
    let (k, s) := s.draw
    s.modBench b fun v => { v with glue := { data := { cells := [], undef := some k } } }

end Sys2Proof.Machine
end

