-- ==== Sys2Proof/Machine/Flight.lean ====
section
/-! DEFINITION. The instructions in flight of a bench (R143): their order, the shadow of a predicted branch (R107), the speculation
buffers with what a younger instruction reads (R209 to R213), and the start of operations on their units (R175). -/

namespace Sys2Proof.Machine

/-! ### Entries in flight -/

/-- Whether an entry is a predicted branch that has not resolved. -/
def Op.isBranch (o : Op) : Bool := match o.kind with | .branch _ => true | _ => false
/-- Whether an entry is a window load that has not been answered. -/
def Op.isLoad (o : Op) : Bool := match o.kind with | .load .. => true | _ => false
/-- Whether an entry counts as a Marquetry operation (R177). -/
def Op.isMarq (o : Op) : Bool := match o.kind with | .unit .portA => false | .unit _ => true | _ => false

/-- The entries from the oldest predicted branch on. -/
def shadowOps (l : List Op) : List Op := l.dropWhile fun o => !o.isBranch

/-- The next instruction issues in the shadow of a predicted branch (R107). -/
def Bench.inShadow (v : Bench) : Bool := v.flight.any Op.isBranch
/-- Instructions issued in the shadow of the oldest predicted branch (R107). -/
def Bench.shadowed (v : Bench) : Nat := ((shadowOps v.flight).map (·.after)).sum
/-- Marquetry operations issued in that shadow (R107). -/
def Bench.shadowUnits (v : Bench) : Nat := ((shadowOps v.flight).filter Op.isMarq).length
/-- Instructions issued and not committed (R143). -/
def Bench.uncommitted (v : Bench) : Nat := (v.flight.map (·.after)).sum
/-- The window load in flight: it is the oldest entry, since a load through a window waits for retire (R107). -/
def Bench.loading (v : Bench) : Option Op := v.flight.find? Op.isLoad
/-- A window load in flight holds one of the registers (R146). -/
def Bench.blocked (v : Bench) (uses : List Reg) : Bool :=
  v.flight.any fun o => match o.kind with | .load r _ => r != 0 && uses.any fun u => u.toNat = r | _ => false

/-- Count an instruction with the youngest entry in flight (R143). -/
def countIn : List Op → List Op
  | [] => []
  | [o] => [{ o with after := o.after + 1 }]
  | o :: os => o :: countIn os

/-- The list without its oldest branch; what issued after the branch now counts with the entry before it. -/
def dropBranch : List Op → List Op
  | [] => []
  | o :: os =>
    if o.isBranch then os
    else match os with
      | [] => [o]
      | p :: ps => if p.isBranch then { o with after := o.after + p.after } :: ps else o :: dropBranch os

/-! ### Points of the program -/

/-- What the Jig core holds now. -/
def Bench.snap (v : Bench) : Snap := { ctx := v.cc, jvec := v.jvec, jsvec := v.jsvec }

/-- The context at an earlier point of its program, with what has come from outside meanwhile: its status, a pending DEADLINE
and its mark in JCAUSE. -/
def Ctx.rewound (c old : Ctx) : Ctx :=
  { old with status := c.status, await := c.await, deadline := c.deadline, jcause := old.jcause ||| (c.jcause &&& 0x10000) }

/-- Go back to a point of the program. -/
def Bench.rewind (v : Bench) (p : Snap) : Bench :=
  { v.modCtx v.curN (fun c => c.rewound p.ctx) with jvec := p.jvec, jsvec := p.jsvec }

/-- Discard the shadow of the oldest predicted branch, and with it every buffer that its work holds (R213). -/
def Bench.squash (v : Bench) : Bench :=
  match v.flight.find? Op.isBranch with
  | none => v
  | some o => { v.rewind o.snap with flight := v.flight.takeWhile fun o => !o.isBranch }

/-! ### Speculation buffers -/

/-- A speculation buffer. -/
def Bench.buf (v : Bench) (k : Nat) : SpecBuf := tget {} v.spec k
/-- A speculation buffer that holds nothing (R210). -/
def Bench.freeBuf (v : Bench) : Option Nat := [0, 1].find? fun k => v.flight.all fun o => o.buf != some k
/-- The buffer that the next instruction's result takes: none outside a shadow (R209). -/
def Bench.nextBuf (v : Bench) : Option Nat := if v.inShadow then v.freeBuf else none
/-- The buffer that holds the newest contents of a destination (R211). -/
def Bench.bufOf (v : Bench) (d : Dest) : Option Nat := (v.flight.reverse.find? fun o => o.dest = d && o.buf.isSome).bind (·.buf)
/-- The offset of a speculation buffer in the board file. -/
def bufBase (k : Nat) : Nat := 0x14000 + 0x1000 * k

/-- Write a result into a speculation buffer: pieces with their offsets. -/
def Bench.setBuf (v : Bench) (k : Nat) (parts : List (Nat × List Byte)) (secure : Bool) : Bench :=
  { v with
    spec := tset {} v.spec k { data := parts.foldl (fun m p => m.setBytes p.1 p.2) (v.buf k).data, secure }
    ecc := if v.ecc.isEmpty then v.ecc else
      parts.foldl (fun t p => eccWrite t siteBoards (bufBase k + p.1) p.2.length false) v.ecc }

/-- A board as the next instruction reads it (R211): a buffered result is owned from its retire on (R212), and by the same task. -/
def Bench.boardV (v : Bench) (n : Nat) : Board :=
  match v.bufOf (.board n) with
  | none => v.board n
  | some k => { v.board n with data := (v.buf k).data, owner := some v.curN, secure := (v.board n).secure || (v.buf k).secure }
/-- A pattern slot as the next instruction reads it (R211). -/
def Bench.slotV (v : Bench) (n : Nat) : Slot :=
  match v.bufOf (.slot n) with
  | none => v.slot n
  | some k => { img := (v.buf k).data, secure := (v.buf k).secure }

/-- The bytes of the rows of a board, each with its offset (R190). -/
def Board.parts (d : Board) : List (Nat × List Byte) := (List.range d.rows).map fun r => (64 * r, d.data.getBytes (64 * r) d.rbytes)

/-- Place a new content of board `n`: the task owns it, and it is marked when computed in secure mode (R192, R195). -/
def Bench.placeBoard (v : Bench) (n : Nat) (d : Board) (secure : Bool) : Bench :=
  let ecc := if v.ecc.isEmpty then v.ecc else
    d.parts.foldl (fun t p => eccWrite t siteBoards (4096 * n + p.1) p.2.length false) v.ecc
  { v.setBoard n { d with owner := some v.curN, secure := d.secure || secure } with ecc }

/-- Place new settings in slot `n`: the mark follows the mode of the solve (R234). -/
def Bench.placeSlot (v : Bench) (n : Nat) (img : Store) (secure : Bool) : Bench :=
  { v.setSlot n { img, secure } with ecc := if v.ecc.isEmpty then v.ecc else eccWrite v.ecc siteSlots (256 * n) 240 false }

/-- The applied-pattern register no longer counts a slot that has been written as last applied (R233). -/
def Bench.unapply (v : Bench) (n : Nat) : Bench :=
  if v.applied.slot = some n then { v with applied := { v.applied with slot := none } } else v

/-! ### Units (R175) -/

/-- The operation writes what another one reads. -/
def Dest.feeds : Dest → Source → Bool
  | .board n, .board m => n = m
  | .slot n, .slot m => n = m
  | _, _ => false

/-- Whether an operation can start behind the older ones: its unit is free, its sources are written, and whatever reads its
destination has started (R175). -/
def Op.mayStart (older : List Op) (o : Op) : Bool :=
  !older.any fun p => (!p.done && (o.kind = p.kind || o.reads.any p.dest.feeds)) || (!p.started && p.reads.any o.dest.feeds)

/-- Start every operation that can start. -/
def startFlight (older : List Op) : List Op → List Op
  | [] => older
  | o :: os => startFlight (older ++ [if o.started || !o.mayStart older then o else { o with started := true }]) os

/-- The oldest unfinished operation of a unit has completed, if it has started. -/
def completeUnit (u : MUnit) : List Op → List Op
  | [] => []
  | o :: os =>
    if o.kind = .unit u && !o.done then (if o.started then { o with done := true } else o) :: os
    else o :: completeUnit u os

end Sys2Proof.Machine
end

