-- ==== Sys2Proof/Machine/Racks.lean ====
section
/-! DEFINITION. Racks and transfer tags: the counters, publication and poison flags of racks (R288 to
R293), the tags of a bench (R179, R287), and the end of a stream (R306, R322, R323, R324). -/

namespace Sys2Proof.Machine

/-- The number of slots of a rack. -/
def Rack.count (r : Rack) : Nat := 2 ^ r.sizelog
/-- The slot index of a counter value (R291). -/
def Rack.idx (r : Rack) (c : Nat) : Nat := c % r.count
/-- The drawer offset of the slot that a counter value names (R291). -/
def Rack.addr (r : Rack) (c : Nat) : Nat := r.base + r.idx c * 2 ^ r.slotlog
/-- Slots in use: RES - REL (R291). -/
def Rack.inUse (r : Rack) : Nat := (r.res - r.rel).toNat
/-- Slots that RECEIVE entries claim (R320). -/
def Rack.claimed (r : Rack) : Nat := (r.claims.map (·.2)).sum
/-- Slots free and claimed by no entry. -/
def Rack.freeSlots (r : Rack) : Nat := r.count - r.inUse - r.claimed
/-- Slots published and not taken: PUB - ACQ. -/
def Rack.ready (r : Rack) : Nat := (r.pub - r.acq).toNat
/-- Transfers that QDEPTH allows (R288). -/
def Rack.depth (r : Rack) : Nat := if r.qdepth = 0 then 64 else r.qdepth

/-- Change rack `r` of bench `b`. -/
def State.modRack (s : State) (b r : Nat) (f : Rack → Rack) : State :=
  s.modBench b fun v => v.setRack r (f (v.rack r))

/-- Publication: PUB becomes CMT, and a BENCH consumer's JIPEND.RACKn is set once (R293). -/
def State.publish (s : State) (b r : Nat) : State :=
  let k := (s.bench b).rack r
  if k.pub = k.cmt then s else
    let s := s.modRack b r fun k => { k with pub := k.cmt }
    if k.cons = 0 then (s.setPend b (2 + r)).modBench b fun v => v.wake (· = .published r) else s

/-- Commit the oldest reserved slot with its poison flag; in a throughput partition it publishes at once (R293, R61). -/
def State.commitSlot (s : State) (b r : Nat) (poison own : Bool) : State :=
  let s := s.modRack b r fun k =>
    { k with
      cmt := k.cmt + 1
      poison := tset false k.poison (k.idx k.cmt.toNat) poison
      own := if own then k.own ++ [k.cmt.toNat] else k.own }
  if s.isRt b then s else s.publish b r

/-- Release the oldest taken slot: REL advances and a late RRES goes on (R292). -/
def State.releaseSlot (s : State) (b r : Nat) : State :=
  (s.modRack b r fun k => { k with rel := k.rel + 1 }).modBench b fun v => v.wake (· = .freeSlot r)

/-- Disable a rack, its counters cleared and its slots dropped (R570). -/
def State.dropRack (s : State) (b r : Nat) : State :=
  s.modRack b r fun k =>
    { base := k.base, sizelog := k.sizelog, slotlog := k.slotlog, qdepth := k.qdepth, cons := k.cons, prod := k.prod
      lasterr := k.lasterr }

/-! ### Word 1 of a rack descriptor (R288, R289) -/

/-- Word `i` of a rack descriptor as a load reads it. -/
def Rack.word (r : Rack) (i : Nat) : Word :=
  if i = 0 then w32 r.base
  else if i = 1 then
    w32 (b2n r.enable * 2 ^ 31 + r.sizelog * 2 ^ 24 + r.qdepth * 2 ^ 16 + r.slotlog * 2 ^ 8 + r.cons.toNat * 16 + r.prod.toNat)
  else if i = 2 then r.res
  else if i = 3 then r.cmt
  else if i = 4 then r.pub
  else if i = 5 then r.acq
  else if i = 6 then r.rel
  else w32 r.lasterr

/-- The first check of R289 that a rack fails, as an error code; 0 for none. -/
def Rack.check (r : Rack) : Nat :=
  if r.sizelog < 3 ∨ 16 < r.sizelog then errRACK
  else if r.slotlog < 6 ∨ 16 < r.slotlog ∨ r.cons = 3 ∨ (r.prod = 2 ∧ r.cons = 2) then errRANGE
  else if r.base % 2 ^ r.slotlog ≠ 0 then errALIGN
  else if 0x001E0000 < r.base + 2 ^ (r.sizelog + r.slotlog) then errRANGE
  else 0

/-- The fields of a write of word 1, stored. -/
def Rack.fields (r : Rack) (v : Word) : Rack :=
  { r with
    sizelog := wfld v 28 24, qdepth := wfld v 21 16, slotlog := wfld v 12 8
    cons := v.extractLsb' 4 2, prod := v.extractLsb' 0 2 }

/-- The rack enabled with its counters cleared (R289). -/
def Rack.fresh (r : Rack) : Rack :=
  { base := r.base, sizelog := r.sizelog, slotlog := r.slotlog, qdepth := r.qdepth, cons := r.cons, prod := r.prod
    enable := true }

/-- A write of word 1; `held`: a stream holds the rack (R289). -/
def Rack.write1 (r : Rack) (held : Bool) (v : Word) : Rack :=
  if r.enable then
    if bit v 31 then { r with qdepth := wfld v 21 16 }
    else if r.res = r.rel && !held then { r.fields v with enable := false }
    else { r with lasterr := errRANGE }
  else
    let r' := r.fields v
    if bit v 31 then (if r'.check = 0 then r'.fresh else { r' with lasterr := r'.check }) else r'

/-- A write of word 0 (R288). -/
def Rack.write0 (r : Rack) (v : Word) : Rack :=
  if r.enable then r else { r with base := wfld v 20 6 * 64 }

/-- Whether a stream holds rack `r` of bench `b` (R289): one of that bench, or a broadcast to it. -/
def State.rackHeld (s : State) (b r : Nat) : Bool :=
  s.benches.any fun e => e.2.streams.any fun st => st.holds.any fun h => h.2 = (b, r)

/-- SE_TAGS (R287). -/
def Bench.seTags (b : Bench) : Word := w32 (b.streams.length * 256 + b.tags.free.length)

/-! ### Tags (R179) -/

/-- The status that a tag holds: 0 before its first use. -/
def Tags.stat (t : Tags) (k : Nat) : Nat := tget 0 t.status k
/-- Whether a tag is free. -/
def Tags.isFree (t : Tags) (k : Nat) : Bool := t.free.contains k

/-- Allocate the tag that has been free longest, for a command of a partition. -/
def Bench.allocTag (b : Bench) (part cmd : Nat) : Option (Nat × Bench) :=
  match b.tags.free with
  | [] => none
  | t :: rest =>
    some (t, { b with tags := { b.tags with free := rest, owner := tput t (part, cmd + 1) b.tags.owner } })

/-- Whether any tag in use belongs to command `cmd` of partition `part`. -/
def Bench.busyFor (b : Bench) (part cmd : Nat) : Bool :=
  b.tags.owner.any fun e => decide (e.2 = (part, cmd + 1))

/-! ### The split of port B (R55 to R57) -/

/-- The port B cycles of a preset (R55). -/
def splitShare (preset : BitVec 2) (c : SplitClass) : Nat :=
  match preset.toNat, c with
  | 0, .hostRead => 50 | 0, _ => 25
  | 1, .remote => 20 | 1, _ => 40
  | 2, .remote => 50 | 2, _ => 25
  | _, .hostRead => 34 | _, _ => 33

/-- Cycles that a class still uses. -/
def splitGet (u : Nat × Nat × Nat) : SplitClass → Nat
  | .hostRead => u.1 | .hostWrite => u.2.1 | .remote => u.2.2

/-- Charge `n` port B cycles to a class (R56, R57). -/
def Bench.charge (v : Bench) (c : SplitClass) (n : Nat) : Bench :=
  let u := v.splitUsed
  { v with splitUsed := match c with
      | .hostRead => (u.1 + n, u.2) | .hostWrite => (u.1, u.2.1 + n, u.2.2) | .remote => (u.1, u.2.1, u.2.2 + n) }

/-- `n` rounds pass: each gives every class its cycles, and an unused cycle is lost (R56). -/
def Bench.rounds (v : Bench) (preset : BitVec 2) (n : Nat) : Bench :=
  let u := v.splitUsed
  { v with
    splitUsed := (u.1 - n * splitShare preset .hostRead, u.2.1 - n * splitShare preset .hostWrite, u.2.2 - n * splitShare preset .remote)
    round := v.round + n }

/-- Rounds until a class has a cycle again. -/
def Bench.roundsFor (v : Bench) (preset : BitVec 2) (c : SplitClass) : Nat := splitGet v.splitUsed c / splitShare preset c

/-! ### Ends of commands (R571, R536) -/

/-- A field of a command descriptor, from its 64 bytes (R530). -/
def Cmd.fld (c : Cmd) (off len : Nat) : Nat := leNat ((c.bytes.drop off).take len)
/-- TAG of a command. -/
def Cmd.tag (c : Cmd) : Word := w32 (c.fld 4 4)
/-- OP of a command. -/
def Cmd.op (c : Cmd) : Nat := c.fld 0 1
/-- ORDER of a command. -/
def Cmd.order (c : Cmd) : Bool := bitN (c.fld 0 4) 9 = 1
/-- IRQ of a command. -/
def Cmd.irq (c : Cmd) : Bool := bitN (c.fld 0 4) 8 = 1
/-- BMASK of a command. -/
def Cmd.bmask (c : Cmd) : BitVec 128 := BitVec.ofNat 128 (c.fld 8 16)

/-- The command of partition `p` with count `id`. -/
def State.cmd? (s : State) (p id : Nat) : Option Cmd := (s.ten p).cmds.find? fun c => c.id = id
/-- Change the command of partition `p` with count `id`. -/
def State.modCmd (s : State) (p id : Nat) (f : Cmd → Cmd) : State :=
  s.modTen p fun t => { t with cmds := t.cmds.map fun c => if c.id = id then f c else c }
/-- The TAG of the command of a task, 0 when it is gone. -/
def State.cmdTag (s : State) (p id : Nat) : Word := match s.cmd? p id with | some c => c.tag | none => 0

/-- A command ends: its completion waits for its number (R571). -/
def State.endCmd (s : State) (p : Nat) (c : Cmd) (status err index bench : Nat) : State :=
  (s.modTen p fun t =>
    { t with
      cmds := t.cmds.filter fun d => d.id ≠ c.id
      cpls := t.cpls ++ [{ tag := c.tag, status, err, op := c.op, bench, index, irq := c.irq, id := c.id }] }).report
    { source := srcForeman, kind := .cpl p c.id }

/-- The status and bench of a RUN that has ended: the lowest row of R536 that applies. -/
def Cmd.runStatus (c : Cmd) : Nat × Nat :=
  match c.fault, c.late with
  | some b, _ => (3, b)
  | none, some b => (4, b)
  | none, none =>
    if c.cancelled then (5, c.left.getD 0) else if c.poison then (1, 0) else (0, 0)

/-- A command was fetched before the CANCEL in progress (R572). -/
def Tenant.beforeCancel (t : Tenant) (c : Cmd) : Bool :=
  let d := (t.cancelTo + 2 ^ 32 - c.id) % 2 ^ 32
  decide (0 < d) && decide (d < 2 ^ 31)

/-- End every RUN of partition `p` whose tasks and tags have all ended (R531, R185). After a CANCEL has stopped its tasks,
the other commands fetched before it end CANCELLED once no such RUN is left, and CANCELLING clears (R572). -/
def State.settle (s : State) (p : Nat) : State :=
  let s := (s.ten p).cmds.foldl (fun (s : State) c =>
    if c.stage = .running && c.op = 2 && c.live = 0 &&
        !(maskList c.bmask).any (fun b => (s.bench b).busyFor p c.id) then
      let (st, b) := c.runStatus
      s.endCmd p c st 0 0 b
    else s) s
  let t := s.ten p
  let old := t.cmds.filter t.beforeCancel
  if t.cancel = some 0 && !old.any (fun c => c.stage = .running) then
    (old.foldl (fun (s : State) c => s.endCmd p c 5 0 0 0) s).modTen p fun t => { t with cancel := none }
  else s

/-- The task that used a tag has not ended. -/
def Bench.tagTask (v : Bench) (t : Nat) : Bool :=
  match tfind v.tags.owner t with
  | some (p, k) => [0, 1, 2, 3].any fun n => (v.ctx n).status != .empty && (v.ctx n).part = p && (v.ctx n).cmd + 1 = k
  | none => true

/-- Tag `t` of bench `b` completes with a status: it becomes free, its waiters go on, and a RUN that only
waited for it ends (R179, R185). After the end of its task no task can read the status, and the tag keeps the one before
(R185; DESIGN CHOICE, log 118). -/
def State.completeTag (s : State) (b t status : Nat) (poison : Bool) : State :=
  let own := tfind (s.bench b).tags.owner t
  let s := s.modBench b fun v =>
    { v with tags := { free := v.tags.free ++ [t], status := if v.tagTask t then tset 0 v.tags.status t status else v.tags.status
                       owner := tdel t v.tags.owner } }
  let s := s.modBench b fun v => v.wake (· = .tag t)
  match own with
  | some (p, k + 1) =>
    let s := if poison then s.modCmd p k fun c => { c with poison := true } else s
    s.settle p
  | _ => s

/-! ### The end of a stream (R306, R322, R323) -/

/-- The unit of a piece. -/
def Piece.unit : Piece → Nat
  | .copy u .. => u | .conv u .. => u | .warm u .. => u
/-- The unit of a transfer of a stream. -/
def Xfer.unit (x : Xfer) : Nat := match x.piece with | some p => p.unit | none => 0

/-- The stream of bench `b` with an order number. -/
def Bench.stream? (v : Bench) (id : Nat) : Option Stream := v.streams.find? fun st => st.id = id
/-- Change a stream of bench `b`. -/
def State.modStream (s : State) (b id : Nat) (f : Stream → Stream) : State :=
  s.modBench b fun v => { v with streams := v.streams.map fun st => if st.id = id then f st else st }

/-- A stream that has stopped: it issues nothing more. -/
def Stream.stopped (st : Stream) : Bool := st.cut || st.fail.isSome
/-- A stream that has issued all its work. -/
def Stream.spent (st : Stream) : Bool := st.stopped || (st.desc.isNone && !st.fresh && st.remain = 0)
/-- The data of a unit carries poison, or did not all come (R323, R324). -/
def Stream.spoiled (st : Stream) (u : Nat) : Bool := st.poisoned.contains u || st.broken.contains u
/-- The stream issues nothing more: the units of the pieces that it has not issued stay incomplete (R323). -/
def Stream.halt (st : Stream) : Stream := { st with work := [], broken := st.broken ++ st.work.map Piece.unit }
/-- The stream stops at a unit with a status; the lowest failing unit gives the status (R323). -/
def Stream.failAt (st : Stream) (u status : Nat) : Stream :=
  { st.halt with
    broken := st.broken ++ st.work.map Piece.unit ++ [u]
    fail := match st.fail with | some f => if u < f.1 then some (u, status) else some f | none => some (u, status) }

/-- Units that are over, in order: their destination slots commit and their source slots are released; the descriptor in force ends
with its last unit (R304, R306, R323). -/
def State.closeUnits (s : State) (b id : Nat) : State :=
  match (s.bench b).stream? id with
  | none => s
  | some st =>
    let open_ (u : Nat) : Bool := st.work.any (fun p => p.unit = u) ||
      (s.bench b).xfers.any fun x => x.stream = some id && x.piece.isSome && x.unit = u
    let first := ((List.range st.unit).find? open_).getD st.unit
    let s := match st.dstRack with
      | some r => (st.slots.filter fun (z : Nat × Nat × Nat) => z.2.2 < first).foldl (fun (s : State) (z : Nat × Nat × Nat) =>
          s.commitSlot z.1 r (st.spoiled z.2.2) false) s
      | none => s
    let s := match st.srcRack with
      | some r => (st.taken.filter fun (z : Nat × Nat) => z.2 < first).foldl (fun (s : State) _ => s.releaseSlot b r) s
      | none => s
    s.modStream b id fun st =>
      { st with
        slots := st.slots.filter fun z => first ≤ z.2.2
        taken := st.taken.filter fun z => first ≤ z.2
        desc := if first = st.units || (st.stopped && first = st.unit) then none else st.desc }

/-- A spent stream with no transfer in flight completes its tag (R306). Other benches then see what it wrote (R305). A stream that
a deadline or a forced stop cut takes status 1 where it had a slot reserved, and status 0 where it had none (R322; DESIGN CHOICE,
log 113). -/
def State.streamEnd (s : State) (b id : Nat) : State :=
  match (s.bench b).stream? id with
  | none => s
  | some st =>
    if st.spent && !(s.bench b).xfers.any (fun x => x.stream = some id) then
      let s := s.modBench b fun v => { v with streams := v.streams.filter fun x => x.id ≠ id }
      let s := (s.benches.map (·.1)).foldl (fun (s : State) k =>
        if k = b then s else s.modBench k fun v => { v with unseen := v.unseen.filter fun z => !(z.bench = b && z.stream = id) }) s
      s.completeTag b st.tag (match st.fail with | some f => f.2 | none => b2n st.poison) st.poison
    else s

/-- Units that are over close, and a spent stream ends. -/
def State.streamOver (s : State) (b id : Nat) : State := (s.closeUnits b id).streamEnd b id

/-- Cancel the unissued transfers of the streams of bench `b` that `which` names (R77, R573). At a deadline their partial slots commit
at once with poison (R322); a forced stop commits and publishes nothing. -/
def State.cutStreams (s : State) (b : Nat) (deadline : Bool) (which : Stream → Bool) : State :=
  let sts := (s.bench b).streams.filter which
  let s := if deadline then sts.foldl (fun (s : State) st =>
      match st.dstRack with
      | some r => st.slots.foldl (fun (s : State) z => s.commitSlot z.1 r true false) s
      | none => s) s
    else s
  let s := s.modBench b fun v =>
    { v with streams := v.streams.map fun st =>
        if which st then
          { st.halt with
            cut := true, desc := none, fresh := false, remain := 0, burst := [], slots := [], poison := st.poison || !st.slots.isEmpty }
        else st }
  sts.foldl (fun s st => s.streamOver b st.id) s

/-- Stop streams of bench `b` with a failing status (R323, R327). -/
def State.failStreams (s : State) (b status : Nat) (which : Stream → Bool) : State :=
  let ids := ((s.bench b).streams.filter which).map (·.id)
  let s := s.modBench b fun v =>
    { v with streams := v.streams.map fun st =>
        if which st then (match st.fail with | some _ => st.halt | none => { st.halt with fail := some (st.unit, status) }) else st }
  ids.foldl (fun s id => s.streamOver b id) s

end Sys2Proof.Machine
end

