-- ==== Sys2Proof/Machine/Tasks.lean ====
section
/-! DEFINITION. Tasks: their end, the forced stop (R573), the task switch (R115), the retirement of a
bench (R639), and the Foreman's verdicts on faults (R633 to R637). -/

namespace Sys2Proof.Machine

/-- How a task ended, for its RUN (R531, R536). -/
inductive TaskEnd where
  | tend | fault | deadline | cancel
  deriving DecidableEq, Repr

/-- The boards that context `n` of a bench owns. -/
def Bench.boardsOf (b : Bench) (n : Nat) : List Nat :=
  (List.range 16).filter fun i => (b.board i).owner = some n

/-- Record at its RUN that the task on bench `b` has ended. -/
def State.noteEnd (s : State) (p id b : Nat) (how : TaskEnd) : State :=
  s.modCmd p id fun c =>
    { c with
      live := maskSet c.live b false
      fault := if how = .fault then some (min b (c.fault.getD b)) else c.fault
      cancelled := c.cancelled || how = .cancel }

/-- The context after its task has ended: EMPTY, with the registers as the task left them, since hardware does not change them
(R98, R119 states what the load of a task sets). -/
def Ctx.emptied (c : Ctx) : Ctx :=
  { c.setGlu false with
    status := .empty, await := .nothing, delay := none, modeShadow := none, deadline := false, part := 0, cmd := 0, rackMask := 0 }

/-- Context `n` of bench `b` ends: boards and glue-up released, racks of its RUN dropped, context EMPTY
(R118, R137, R570, R573). The bench then runs its next READY task. After a double fault or a forced stop the patch buffer keeps
its entries (DESIGN CHOICE, log 110). -/
def State.endTask (s : State) (b n : Nat) (how : TaskEnd) : State :=
  let c := (s.bench b).ctx n
  let s := ((s.bench b).boardsOf n).foldl (fun s i => s.releaseBoard b i) s
  let s := if c.glu then s.releaseGlue b else s
  let s := ([0, 1, 2, 3].filter fun r => c.rackMask.getLsbD r).foldl (fun s r => s.dropRack b r) s
  let s := s.modBench b fun v =>
    let v := { v with
      flight := if v.cur = some n then [] else v.flight
      cur := if v.cur = some n then none else v.cur
      last := if v.cur = some n then n else v.last }
    v.modCtx n Ctx.emptied
  let s := s.noteEnd c.part c.cmd b how
  let s := s.modBench b fun v =>
    -- A preserving run that waits starts once every context is EMPTY (R364): PLANE_RUN_BEGIN.
    v.pick
  s.settle c.part

/-- What an abandoned operation was writing becomes undefined (R186). -/
def State.spoil (s : State) (b : Nat) (d : Dest) : State :=
  let (k, s) := s.draw
  let free (o n : Nat) : List Byte := (List.range n).map fun i => Config.freeByte k (o + i)
  match d with
  | .nothing => s
  | .board n => s.modBench b fun v => v.setBoard n { v.board n with data := { cells := [], undef := some k } }
  | .slot n => s.modBench b fun v => v.setSlot n { v.slot n with img := { cells := [], undef := some k } }
  | .glue rows => s.modBench b fun v =>
    { v with glue := { v.glue with data := rows.foldl (fun m r => m.setBytes (256 * r) (free (256 * r) 256)) v.glue.data } }
  | .drawer runs => s.modBench b fun v => runs.foldl (fun v r => v.writeDrawer r.1 (free r.1 r.2)) v

/-- Abandon the operations of a stopped bench that have not completed (R186, R573): what they were writing is undefined. A result
in a speculation buffer has reached no destination. -/
def State.abandon (s : State) (b : Nat) : State :=
  let ops := (s.bench b).flight
  let s := s.modBench b fun v => { v with flight := [] }
  ops.foldl (fun s o => if o.done || o.buf.isSome || o.dest = .nothing then s else s.spoil b o.dest) s

/-- The forced stop of context `n` of bench `b` (R573). -/
def State.forceStop (s : State) (b n : Nat) (how : TaskEnd) : State :=
  let v := s.bench b
  let c := v.ctx n
  if c.status = .empty then s else
    let s := if v.cur = some n then (s.modBench b Bench.squash).abandon b else s
    let s := s.cutStreams b false fun st => st.part = c.part && st.cmd = c.cmd
    s.endTask b n how

/-- Force-stop every task of bench `b` (R639). -/
def State.forceStopAll (s : State) (b : Nat) (how : TaskEnd) : State :=
  [0, 1, 2, 3].foldl (fun s n => s.forceStop b n how) s

/-- The check bits of the bytes `lo` to `hi - 1` of a memory become valid. -/
def dropEcc (t : Tab Ecc) (site lo hi : Nat) : Tab Ecc :=
  t.filter fun e => decide (e.1 < eccKey site lo) || decide (eccKey site hi ≤ e.1)

/-- The words of context `n` in the context store are written: their check bits become valid. -/
def Bench.saveCtx (v : Bench) (n : Nat) : Bench :=
  { v with ecc := if v.ecc.isEmpty then [] else dropEcc v.ecc siteContext (256 * n) (256 * (n + 1)) }

/-- The task switch (R115, R126): the patch buffer is written, the old context is saved, and the next READY task after it runs. -/
def State.switchTask (s : State) (b : Nat) : State :=
  s.modBench b fun v => ({ v.flushPatch.saveCtx v.curN with cur := none, last := v.curN }).pick

/-! ### Wipes and retirement -/

/-- Wipe bank 15, the marked contents of the board file and both speculation buffers of a bench: they read 0 with valid check bits (R352, R353). -/
def Bench.wipe (b : Bench) : Bench :=
  let marked (p : Nat → Bool) (site base size n : Nat) (t : Tab Ecc) : Tab Ecc :=
    (List.range n).foldl (fun t i => if p i then dropEcc t site (base + size * i) (base + size * (i + 1)) else t) t
  { b with
    drawer := b.drawer.clear 0x1E0000 0x200000
    unseen := (b.see 0x1E0000 0x20000).unseen
    ecc :=
      let t := dropEcc b.ecc siteDrawer 0x1E0000 0x200000
      let t := marked (fun i => (b.board i).secure) siteBoards 0 4096 16 t
      let t := marked (fun _ => b.glue.secure) siteBoards 65536 16384 1 t
      let t := marked (fun _ => true) siteBoards (bufBase 0) 8192 1 t
      let t := marked (fun i => (b.slot i).secure) siteSlots 0 256 16 t
      marked (fun _ => b.applied.secure) siteSlots 4096 256 1 t
    boards := (List.range 16).foldl (fun t i =>
      let bd := tget {} t i
      if bd.secure then tset {} t i { bd with data := {}, secure := false } else t) b.boards
    spec := []
    glue := if b.glue.secure then { b.glue with data := {}, secure := false } else b.glue
    slots := (List.range 16).foldl (fun t i => if (tget {} t i).secure then tset {} t i {} else t) b.slots
    applied := if b.applied.secure then {} else b.applied }

/-- The count of usable benches (R499). -/
def State.usableCount (s : State) : Nat := (maskList s.dev.usable).length

/-- Clear bench `b` from every local wait list (R584, R586). -/
def State.dropWaits (s : State) (b : Nat) : State :=
  (s.dowels.map (·.1)).foldl (fun s d => s.modDowel d fun w => { w with waits := maskSet w.waits b false }) s

/-- Retire bench `b` for a reason of R642: tasks stopped, racks disabled, streams ended with status 4, secure
contents wiped, its fuse bit cleared, and the event reported (R639, R327, R222). -/
def State.retire (s : State) (b reason : Nat) : State :=
  if s.usable b then
    let s := s.failStreams b 4 fun _ => true
    let s := allBenches.foldl (fun s o =>
      if o = b then s else s.failStreams o 4 fun st => st.holds.any fun h => h.1 && h.2.1 = b) s
    let s := s.forceStopAll b .fault
    let s := [0, 1, 2, 3].foldl (fun s r => s.dropRack b r) s
    let s := s.modBench b fun v =>
      { v.wipe with plane := .none, planeOk := false, draining := false, retireIn := none, mailbox := [] }
    let s := { s with dev := { s.dev with usable := maskSet s.dev.usable b false } }
    let s := allParts.foldl (fun s p => s.modTen p fun t => { t with mask := maskSet t.mask b false }) s
    let s := s.dropWaits b
    let (k, s) := s.draw
    let s := s.logAll srcForeman 0x90 2 (Config.freeWord k) 0
    s.logAll srcForeman 0x8E (w32 b) (w32 reason) (w32 s.usableCount) 1
  else s

/-! ### Fault reports of a bench (R633, R635, R642) -/

/-- Site code of INFO0: the memory, and the bench (R642). -/
def siteInfo (b site : Nat) : Word := w32 (site + b * 256)

/-- A corrected word: counted, reported at most once per 1,024 strokes per memory, and queued for its scrubber (R633, R642). -/
def State.corrected (s : State) (b site key : Nat) : State :=
  let v := s.bench b
  let n := tget 0 v.corrN site + 1
  let due := match tget none v.corrAt site with
    | none => true
    | some t => decide (t + 1024 ≤ s.now)
  let s := s.modBench b fun v =>
    { v with
      scrubQ := if v.scrubQ.contains key then v.scrubQ else v.scrubQ ++ [key]
      corrN := tset 0 v.corrN site (if due then 0 else n)
      corrAt := if due then tset none v.corrAt site (some s.now) else v.corrAt }
  if due then s.logAll (srcBench b) 0x80 (siteInfo b site) (w32 (keyAddr site key)) (w32 n) else s

/-- An uncorrectable word: reported, queued, and a second one in the bench within 2^20 strokes retires it (R369, R635). -/
def State.uncorrectable (s : State) (b site key : Nat) : State :=
  let v := s.bench b
  let again := match v.uncorAt with
    | none => false
    | some (k, t) => k != key && decide (s.now < t + 2 ^ 20)
  let s := s.modBench b fun v =>
    { v with
      scrubQ := if v.scrubQ.contains key then v.scrubQ else v.scrubQ ++ [key]
      uncorAt := some (key, s.now) }
  let s := s.logAll (srcBench b) 0x81 (siteInfo b site) (w32 (keyAddr site key)) (w32 (b2n again))
  if again then s.retire b 1 else s

/-- Report the words with errors that a port read met (R368, R369): each corrected one and each uncorrectable one; a poisoned one is
reported as propagated poison, which has no event (R349). -/
def State.eccReports (s : State) (b : Nat) (l : List (Nat × Ecc)) : State :=
  l.foldl (fun s e =>
    match e.2 with
    | .single => s.corrected b (e.1 / 2 ^ 24) e.1
    | .double => s.uncorrectable b (e.1 / 2 ^ 24) e.1
    | .poison => { s with foreman := { s.foreman with poisons := s.foreman.poisons + 1 } }
    | .ok => s) s

/-- The words with errors of the drawer that a write of `n` bytes at `off` does not cover whole; it covers the bytes from `lo` on, below
`hi`, wholly. -/
def Bench.partWords (v : Bench) (off n : Nat) (lo : Nat := off) (hi : Nat := off + n) : List (Nat × Ecc) :=
  (v.eccIn siteDrawer off n).filter fun e =>
    (e.2 = .double || e.2 = .poison) && !(decide (lo ≤ 4 * (e.1 % 2 ^ 24)) && decide (4 * (e.1 % 2 ^ 24) + 4 ≤ hi))

/-- The uncorrectable words of which a write of `n` bytes at `off` covers a part are reported (R331). -/
def State.partReports (s : State) (b off n : Nat) : State :=
  s.eccReports b (((s.bench b).partWords off n).filter fun e => e.2 = .double)

/-- A checksum or solve check that failed (R236, R237, R642); a second one in the bench within 2^16 strokes retires it (R635). -/
def State.checksumReport (s : State) (b : Nat) (pc : Word) (squashed : Bool) : State :=
  let v := s.bench b
  let again := match v.sumAt with | none => false | some t => decide (s.now < t + 2 ^ 16)
  let s := s.modBench b fun v => { v with sumAt := some s.now }
  let s := s.log (srcBench b) 0x83 (s.actsFor b) (w32 b) pc (w32 (b2n squashed))
  if again then s.retire b 3 else s

end Sys2Proof.Machine
end

