-- ==== Sys2Proof/Machine/JigCore.lean ====
section
/-! DEFINITION. The Jig core around one instruction: what happens before it issues (deadline, interrupt,
fetch, slot and shadow legality), exception entry (R127, R129, R137), and its retire with the loop-end test
(R109), the delay slot (R103), the SETMODE shadow (R101) and the shadow of a predicted branch (R107). -/

namespace Sys2Proof.Machine

/-- Where an instruction may stand (R102, R103, R110). -/
inductive Kind where
  | plain
  /-- A branch or jump. -/
  | branch
  /-- SETMODE, LOOP, ISYNC, WSTROKE, YIELD, TEND, TRAP, ERET. -/
  | control
  deriving DecidableEq, Repr

/-- What the body of an instruction comes to. -/
inductive Res where
  /-- It retires; `post` applies after the loop-end test (R133), and `next` replaces the address after it. -/
  | done (s : State) (post : State → State) (next : Option Word)
  /-- It raises an exception (R97) and has no effect. -/
  | exc (code : Nat) (bad : Option Word)
  /-- Its checksum or solve check fails (R236, R237): it raises CHECKSUM and has no effect but its energy (R247, R214). -/
  | sum (s : State)
  /-- It needs data that is late (R76, R114). -/
  | late (w : Await)
  /-- It waits in place: nothing changes. -/
  | hold
  /-- It reads an uncorrectable or poisoned word through port A (R221, R637). -/
  | fail (s : State)
  /-- It ends with this state: it has set the program counter itself, or has no running task. -/
  | stop (s : State)

/-! ### Start, completion and commit of operations (R143, R175, R212) -/

/-- An operation starts: its energy counts (R214, R243), and it changes the applied-pattern register (R233). -/
def State.opStarts (s : State) (b : Nat) (o : Op) : State :=
  (s.permEnergy b o.bytes).modBench b fun v =>
    match o.applied with
    | some a =>
      -- A load of the register from a slot writes its check bits (R248).
      if a.slot.isSome && a.slot = v.applied.slot then { v with applied := a }
      else { v with applied := a, ecc := dropEcc v.ecc siteSlots 4096 4352 }
    | none => match o.dest with
      | .slot n => if o.buf.isNone then v.unapply n else v
      | _ => v

/-- Every operation that can start does. -/
def State.startOps (s : State) (b : Nat) : State :=
  let l := (s.bench b).flight
  let s := s.modBench b fun v => { v with flight := startFlight [] l }
  (l.zip (startFlight [] l)).foldl (fun s p => if !p.1.started && p.2.started then s.opStarts b p.2 else s) s

/-- An operation takes its place behind those in flight. -/
def State.launch (s : State) (b : Nat) (o : Op) : State :=
  (s.modBench b fun v => { v with flight := v.flight ++ [o] }).startOps b

/-- Code words with errors move from a speculation buffer to the code words from `key` on. -/
def moveEcc (t : Tab Ecc) (k : Nat) (l : List (Nat × Ecc)) (key : Nat) : Tab Ecc :=
  l.foldl (fun t e => tset .ok t (key + e.1 - eccKey siteBoards (bufBase k)) e.2) t

/-- A buffered result is written to its destination with its check bits (R212, R221): an error in the buffer is met by the next
reader of the destination. -/
def Bench.unbuffer (v : Bench) (k : Nat) (d : Dest) : Bench :=
  let f := v.buf k
  match d with
  | .board n =>
    let parts := ({ v.board n with data := f.data } : Board).parts
    let l := if v.ecc.isEmpty then [] else parts.flatMap fun p => v.eccIn siteBoards (bufBase k + p.1) p.2.length
    let w := v.placeBoard n { v.board n with data := parts.foldl (fun m p => m.setBytes p.1 p.2) (v.board n).data } f.secure
    { w with ecc := moveEcc w.ecc k l (eccKey siteBoards (4096 * n)) }
  | .slot n =>
    let w := (v.placeSlot n ({ : Store }.setBytes 0 (f.data.getBytes 0 240)) f.secure).unapply n
    { w with ecc := moveEcc w.ecc k (v.eccIn siteBoards (bufBase k) 240) (eccKey siteSlots (256 * n)) }
  | _ => v

/-- An operation commits (R143): a buffered result reaches its destination, and clamped indices are counted (R246). -/
def State.commitOp (s : State) (b : Nat) (o : Op) : State :=
  let s := if o.started then s else s.opStarts b o
  let s := match o.buf with | some k => s.modBench b fun v => v.unbuffer k o.dest | none => s
  if o.oob = 0 then s else s.oobAdd (s.actsFor b) o.oob

/-- The oldest entry leaves the flight; an operation commits. -/
def State.popHead (s : State) (b : Nat) : State :=
  match (s.bench b).flight with
  | [] => s
  | o :: os => (if o.isBranch || o.isLoad then s else s.commitOp b o).modBench b fun v => { v with flight := os }

/-- Completed operations commit, in program order (R143). -/
def State.popDone (s : State) (b : Nat) : State :=
  (s.bench b).flight.foldl (fun s _ =>
    match (s.bench b).flight with
    | o :: _ => if o.done then s.popHead b else s
    | [] => s) s

/-- The oldest predicted branch resolves (R212, R213). True when the work goes on, false when it was squashed. -/
def State.resolveOne (s : State) (b : Nat) : State × Bool :=
  match (s.bench b).flight.find? Op.isBranch with
  | none => (s, true)
  | some o =>
    if o.kind = .branch true then ((s.modBench b fun v => { v with flight := dropBranch v.flight }).popDone b, true)
    else (s.modBench b Bench.squash, false)

/-- Every predicted branch resolves, oldest first. -/
def State.resolveAll (s : State) (b : Nat) : State × Bool :=
  (s.bench b).flight.foldl (fun (acc : State × Bool) _ => if acc.2 then acc.1.resolveOne b else acc) (s, true)

/-- The oldest entry commits, once it has completed or resolved. -/
def State.commitHead (s : State) (b : Nat) : State × Bool :=
  match (s.bench b).flight with
  | [] => (s, true)
  | o :: _ => if o.isBranch then s.resolveOne b else (s.popHead b, true)

/-- What an instruction that waits for retire needs (R107, R143): every older instruction commits. Operations complete and branches
resolve with time; a window load commits with its RSP only (R146). True when the instruction can issue; false when it still waits,
or was squashed. -/
def State.commitAll (s : State) (b : Nat) : State × Bool :=
  if (s.bench b).loading.isSome then (s, false)
  else (s.bench b).flight.foldl (fun (acc : State × Bool) _ => if acc.2 then acc.1.commitHead b else acc) (s, true)

/-- What any other instruction needs: at most 4 instructions issue in the shadow of a branch (R107), and at most 16 are
issued and not committed (R143). -/
def State.makeRoom (s : State) (b : Nat) : State × Bool :=
  let r := if 4 ≤ (s.bench b).shadowed then s.resolveAll b else (s, true)
  if r.2 && decide (16 ≤ (r.1.bench b).uncommitted) then r.1.commitAll b else r

/-! ### Entry (R127, R129) -/

/-- Entry for an exception, an interrupt or a system call, with JEPC and JCAUSE as given (R127). -/
def Ctx.enter (c : Ctx) (jvec jsvec : Word) (kind : EntryKind) (epc cause : Word) : Ctx :=
  let c := { c with jepc := epc, jcause := cause }
  let c := ((c.setJ 3 2 c.mode.toNat).setJ 5 5 (b2n c.ie)).setJ 12 12 (b2n c.le)
  let c := ((c.setJ 4 4 0).setJ 11 11 0).setJ 6 6 1
  let sec := c.mode = mSecure
  let c := { c with pc := (if sec then jsvec else jvec) + kind.offset, delay := none, modeShadow := none }
  if sec then c else c.setMode mSuper

/-- The state that an entry saves of a delay slot and of a SETMODE shadow (R129). -/
def Ctx.saveShadow (c : Ctx) : Ctx :=
  let c := c.setJ 7 7 (b2n c.delay.isSome)
  match c.modeShadow with
  | some m => (c.setJ 8 8 1).setJ 10 9 m.toNat
  | none => c.setJ 8 8 0

/-- The address that an entry saves for an instruction at the program counter: the branch for a delay slot (R129). -/
def Ctx.epc (c : Ctx) : Word := match c.delay with | some d => d.pc | none => c.pc

/-- An exception of the running task of bench `b` (R127, R129, R137). -/
def State.except (s : State) (b code : Nat) (bad : Option Word) : State :=
  let v := s.bench b
  let c := v.cc
  if c.exl && code != exDEADLINE then
    -- Double fault (R137).
    let s := s.log (srcBench b) 0x10 c.part (jcauseOf .exception code 0 c.deadline) c.pc (s.cmdTag c.part c.cmd)
    s.endTask b v.curN .fault
  else
    let pend := c.deadline && code != exDEADLINE
    let c' := c.saveShadow.enter v.jvec v.jsvec .exception c.epc (jcauseOf .exception code 0 pend)
    let c' := match bad with | some a => { c' with jbadaddr := a } | none => c'
    s.modCc b fun _ => { c' with deadline := pend }

/-- An exception is taken once every older instruction has committed (R143); one in the shadow of a predicted branch vanishes
with its path (R135), and a checksum failure of squashed work is only reported (R214). -/
def State.raise (s : State) (b code : Nat) (bad : Option Word) : State :=
  if (s.bench b).loading.isSome then s
  else
    let pc := (s.cc b).pc
    let (s, ok) := s.commitAll b
    if ok then
      let s := if code = exSUM then s.checksumReport b (s.cc b).pc false else s
      if (s.bench b).cur.isNone then s else s.except b code bad
    else if code = exSUM then s.checksumReport b pc true
    else s

/-- The lowest pending and enabled source of bench `b` (R130). -/
def Bench.irqSource (b : Bench) : Option Nat :=
  (List.range 8).find? fun i => bit b.jipend i && bit b.cc.jien i

/-- Whether an interrupt can be taken now, and which (R130). -/
def Bench.takeable (b : Bench) : Option Nat :=
  let c := b.cc
  if c.ie && !c.exl && c.delay.isNone && c.modeShadow.isNone then b.irqSource else none

/-- Take an interrupt (R127, R130), once every issued instruction has committed (R143). -/
def State.interrupt (s : State) (b : Nat) : State :=
  if (s.bench b).loading.isSome then s else
  let s := (s.commitAll b).1
  let v := s.bench b
  match v.takeable with
  | some j => s.modCc b fun c =>
    { c.saveShadow.enter v.jvec v.jsvec .interrupt c.pc (jcauseOf .interrupt 0 j c.deadline) with
      status := .running, await := .nothing }
  | none => s

/-! ### Retire -/

/-- The loop-end test of R109 at address `a`, with `next` the address after it. -/
def loopEnd (c : Ctx) (a next : Word) : Ctx × Word :=
  let lvl (c : Ctx) (n : Nat) : Bool := tget 0 c.lcnt n != 0 && tget 0 c.lend n == a
  let dec (c : Ctx) (n : Nat) : Ctx := { c with lcnt := tset 0 c.lcnt n (tget 0 c.lcnt n - 1) }
  let zero (c : Ctx) (n : Nat) : Ctx := { c with lcnt := tset 0 c.lcnt n 0 }
  if c.le then
    let again (c : Ctx) (n : Nat) : Bool := decide (1 < (tget 0 c.lcnt n).toNat)
    if lvl c 0 && again c 0 then (dec c 0, tget 0 c.lstart 0) else
      let c := if lvl c 0 then zero c 0 else c
      if lvl c 1 && again c 1 then (dec c 1, tget 0 c.lstart 1) else
        let c := if lvl c 1 then zero c 1 else c
        if lvl c 2 && again c 2 then (dec c 2, tget 0 c.lstart 2) else
          (if lvl c 2 then zero c 2 else c, next)
  else (c, next)

/-- Whether the instruction at `a` ends an active loop body (R110). -/
def Ctx.atLoopEnd (c : Ctx) : Bool :=
  c.le && [0, 1, 2].any fun n => tget 0 c.lcnt n != 0 && tget 0 c.lend n == c.pc

/-- The shadow of a predicted branch begins after its delay slot (R107): `path` is the right one. -/
def Bench.pushBranch (v : Bench) (right : Bool) (path : Word) : Bench :=
  let p := v.snap
  { v with flight := v.flight ++ [{ kind := .branch right, snap := { p with ctx := { p.ctx with pc := path } }, started := true }] }

/-- The context after the instruction at its program counter has retired: the loop-end test (R109), the mode change that was
pending (R101), and the address that the branch of a delay slot chose (R103). `shadow` is the mode change, `slot` the delay slot. -/
def Ctx.retired (c : Ctx) (shadow : Option (BitVec 2)) (slot : Option Delay) (next : Option Word) : Ctx :=
  let r := loopEnd c c.pc (next.getD (c.pc + 4))
  let c := match shadow with | some m => { r.1.setMode m with modeShadow := none } | none => r.1
  match slot with
  | none => { c with pc := r.2 }
  | some d => { c with pc := d.next, delay := none }

/-- The instruction at the program counter of the running task is done: the context goes on, what is in flight counts it (R143),
`post` acts (R133), and after the delay slot of a predicted branch its shadow begins (R107). -/
def State.retireInsn (s : State) (b : Nat) (shadow : Option (BitVec 2)) (slot : Option Delay) (post : State → State)
    (next : Option Word) : State :=
  let s := (s.modCc b fun c => c.retired shadow slot next).modBench b fun v => { v with flight := countIn v.flight }
  let s := post s
  match slot.bind fun d => d.other.map fun o => (d, o) with
  | none => s
  | some (d, o) => s.modBench b fun v => v.pushBranch d.right (if d.right then d.next else o)

/-! ### Late tasks (R76, R114, R116, R117) -/

/-- The running task of bench `b` is late: it is switched out in a throughput partition when another task is
READY and R117 allows it, and stalls otherwise. -/
def State.lateTask (s : State) (b : Nat) (w : Await) : State :=
  let v := s.bench b
  let c := v.cc
  let may := !s.isRt b && !c.exl && !c.glu && c.delay.isNone && c.modeShadow.isNone && (v.nextReady v.curN).isSome
  if may then
    (s.modCc b fun c => { c with status := .waiting, await := w }).switchTask b
  else s.modCc b fun c => { c with status := .stalled, await := w }

/-! ### Issue -/

/-- Bench `b` can issue: the device runs, and the bench is in service with a task that runs. -/
def State.canRun (s : State) (b : Nat) : Bool :=
  s.alive && s.usable b && !(s.bench b).draining && !(s.bench b).clearing &&
    (s.bench b).cur.isSome && decide ((s.cc b).status = .running)

/-- The fetch at the program counter fails: its cause (R121). A program counter that is no multiple of 4 and was reached without a
jump, by ERET or by a loop-back, raises ALIGN_FAULT with JBADADDR = the program counter (DESIGN CHOICE, log 104: the spec gives the
cause for jumps only). -/
def fetchFault (pc : Word) : Option Nat :=
  if pc.toNat % 4 ≠ 0 then some exALIGN
  else if pc.toNat < 0x00400000 ∨ 0x00410000 ≤ pc.toNat then some exFENCE
  else none

/-- The errors of the word that is fetched and, before the first instruction after a switch, of the context that came from the context
store (R368, R369). -/
def Bench.badFetch (b : Bench) : List (Nat × Ecc) :=
  b.eccIn siteIdrawer (b.cc.pc.toNat - 0x00400000) 4 ++ (if b.switched then b.eccIn siteContext (256 * b.curN) 256 else [])

/-- What stands before an instruction of bench `b` and is taken in its place: a pending deadline (R59, R76, R135),
a failing fetch or switch-in (R121, R369, R637), or a reserved place (R102, R103, R110). -/
def State.before (s : State) (b : Nat) (kind : Kind) : Option State :=
  let v := s.bench b
  let c := v.cc
  if c.deadline && !c.exl then some (s.raise b exDEADLINE none)
  else
    match fetchFault c.pc with
    | some code => some (s.raise b code (some c.pc))
    | none =>
      if eccBad v.badFetch then
        if v.loading.isSome then some s else
        let (s, ok) := s.commitAll b
        some (if ok then (s.eccReports b v.badFetch).forceStop b v.curN .fault else s)
      else if (kind != .plain && (c.delay.isSome || c.modeShadow.isSome)) ||
          ((kind = .branch || c.delay.isSome) && c.atLoopEnd) then
        some (s.raise b exILLEGAL none)
      else none

/-- Carry out an instruction whose body is known. -/
def State.finish (s : State) (b : Nat) (r : Res) : State :=
  let c := s.cc b
  match r with
  | .done s' post next => s'.retireInsn b c.modeShadow c.delay post next
  | .exc code bad => s.raise b code bad
  | .sum s' => if (s.bench b).loading.isSome then s else s'.raise b exSUM none
  | .late w => s.lateTask b w
  | .hold => s
  | .fail s' =>
    if (s.bench b).loading.isSome then s else
    let (s', ok) := s'.commitAll b
    if ok then s'.forceStop b (s'.bench b).curN .fault else s'
  | .stop s' => s'

/-- Whether a body raises an exception. -/
def Res.raises : Res → Bool
  | .exc .. | .sum _ => true
  | _ => false

/-- Count an instruction of bench `b` against the slack of its stroke (R591); it is past any switch. -/
def State.tally (s : State) (b : Nat) : State := s.modBench b fun v => { v with issued := v.issued + 1, switched := false }

/-- The instruction waits until it may issue: for retire, or for room (R107, R143). -/
def State.letIn (s : State) (b : Nat) (retire : Bool) : State × Bool := if retire then s.commitAll b else s.makeRoom b

/-- Bench `b` issues an instruction that uses the registers `uses`. `retire`: it waits for retire (R107). An interrupt that can be
taken is taken in its place, unless it raises an exception (R130, R135). A corrected error of the fetched word is reported (R368). -/
def issue (b : Bench7) (kind : Kind) (retire : State → Bool) (uses : List Reg) (body : State → Res) (s : State) : State :=
  let n := b.toNat
  if !s.canRun n then s
  else match s.before n kind with
  | some s' => s'
  | none =>
    if (s.bench n).blocked uses then s else
      let irq := (s.bench n).takeable.isSome
      let r := s.letIn n (retire s)
      if r.2 then
        let t := (r.1.eccReports n (s.bench n).badFetch).tally n
        if irq && !(body t).raises then s.interrupt n else t.finish n (body t)
      else r.1

/-- The body retires with this state. -/
def Res.ok (s : State) : Res := .done s id none

/-- An instruction waits for retire whatever the state (R107). -/
def always (_ : State) : Bool := true
/-- An instruction may issue in the shadow of a predicted branch (R107). -/
def never (_ : State) : Bool := false

/-- Write a register of the running task and retire. -/
def Res.reg (s : State) (b : Bench7) (rd : Reg) (v : Word) : Res :=
  .ok (s.modCc b.toNat fun c => c.setReg rd v)

end Sys2Proof.Machine
end

