-- ==== Sys2Proof/Machine/Alu.lean ====
section
/-! DEFINITION. The register ALU and immediate instructions (R149, R150). -/

namespace Sys2Proof.Machine

/-- The outcome of a command that gives a next state. -/
abbrev Out := Host.Outcome State Fault Refusal

/-- An instruction that computes `rd` from registers and raises nothing (R149, R150). -/
def aluOp (b : Bench7) (rd : Reg) (uses : List Reg) (f : Ctx → Word) (s : State) : State :=
  issue b .plain never (rd :: uses) (fun s => Res.reg s b rd (f (s.cc b.toNat))) s

/-- 1 or 0 as a word. -/
def flagW (p : Bool) : Word := if p then 1 else 0

/-- Leading zeros among the low `n` bits. -/
def clzFrom (x : Word) : Nat → Nat
  | 0 => 0
  | n + 1 => if bit x n then 0 else 1 + clzFrom x n

/-- Set bits among the low `n` bits. -/
def popFrom (x : Word) : Nat → Nat
  | 0 => 0
  | n + 1 => b2n (bit x n) + popFrom x n

/-- The shift amount of a register: its bits 4:0. -/
def shamt (x : Word) : Nat := wfld x 4 0

/-- ADD (R149): the sum modulo 2^32. -/
def execAdd (b : Bench7) (rd ra rb : Reg) (s : State) : Out :=
  .next (aluOp b rd [ra, rb] (fun c => c.reg ra + c.reg rb) s)
/-- SUB (R149): the difference modulo 2^32. -/
def execSub (b : Bench7) (rd ra rb : Reg) (s : State) : Out :=
  .next (aluOp b rd [ra, rb] (fun c => c.reg ra - c.reg rb) s)
/-- AND (R149). -/
def execAnd (b : Bench7) (rd ra rb : Reg) (s : State) : Out :=
  .next (aluOp b rd [ra, rb] (fun c => c.reg ra &&& c.reg rb) s)
/-- ANDN (R149). -/
def execAndn (b : Bench7) (rd ra rb : Reg) (s : State) : Out :=
  .next (aluOp b rd [ra, rb] (fun c => c.reg ra &&& ~~~c.reg rb) s)
/-- OR (R149). -/
def execOr (b : Bench7) (rd ra rb : Reg) (s : State) : Out :=
  .next (aluOp b rd [ra, rb] (fun c => c.reg ra ||| c.reg rb) s)
/-- XOR (R149). -/
def execXor (b : Bench7) (rd ra rb : Reg) (s : State) : Out :=
  .next (aluOp b rd [ra, rb] (fun c => c.reg ra ^^^ c.reg rb) s)
/-- SLL (R149): shift left by bits 4:0 of the second register. -/
def execSll (b : Bench7) (rd ra rb : Reg) (s : State) : Out :=
  .next (aluOp b rd [ra, rb] (fun c => c.reg ra <<< shamt (c.reg rb)) s)
/-- SRL (R149): shift right with zero fill. -/
def execSrl (b : Bench7) (rd ra rb : Reg) (s : State) : Out :=
  .next (aluOp b rd [ra, rb] (fun c => c.reg ra >>> shamt (c.reg rb)) s)
/-- SRA (R149): shift right with sign fill. -/
def execSra (b : Bench7) (rd ra rb : Reg) (s : State) : Out :=
  .next (aluOp b rd [ra, rb] (fun c => (c.reg ra).sshiftRight (shamt (c.reg rb))) s)
/-- SLT (R149): signed less-than. -/
def execSlt (b : Bench7) (rd ra rb : Reg) (s : State) : Out :=
  .next (aluOp b rd [ra, rb] (fun c => flagW ((c.reg ra).slt (c.reg rb))) s)
/-- SLTU (R149): unsigned less-than. -/
def execSltu (b : Bench7) (rd ra rb : Reg) (s : State) : Out :=
  .next (aluOp b rd [ra, rb] (fun c => flagW ((c.reg ra).ult (c.reg rb))) s)
/-- MIN (R149): signed minimum. -/
def execMin (b : Bench7) (rd ra rb : Reg) (s : State) : Out :=
  .next (aluOp b rd [ra, rb] (fun c => if (c.reg ra).slt (c.reg rb) then c.reg ra else c.reg rb) s)
/-- MAX (R149): signed maximum. -/
def execMax (b : Bench7) (rd ra rb : Reg) (s : State) : Out :=
  .next (aluOp b rd [ra, rb] (fun c => if (c.reg ra).slt (c.reg rb) then c.reg rb else c.reg ra) s)
/-- MINU (R149): unsigned minimum. -/
def execMinu (b : Bench7) (rd ra rb : Reg) (s : State) : Out :=
  .next (aluOp b rd [ra, rb] (fun c => if (c.reg ra).ult (c.reg rb) then c.reg ra else c.reg rb) s)
/-- MAXU (R149): unsigned maximum. -/
def execMaxu (b : Bench7) (rd ra rb : Reg) (s : State) : Out :=
  .next (aluOp b rd [ra, rb] (fun c => if (c.reg ra).ult (c.reg rb) then c.reg rb else c.reg ra) s)
/-- CLZ (R149): leading zeros, 0 to 32. -/
def execClz (b : Bench7) (rd ra : Reg) (s : State) : Out :=
  .next (aluOp b rd [ra] (fun c => w32 (clzFrom (c.reg ra) 32)) s)
/-- POPC (R149): set bits, 0 to 32. -/
def execPopc (b : Bench7) (rd ra : Reg) (s : State) : Out :=
  .next (aluOp b rd [ra] (fun c => w32 (popFrom (c.reg ra) 32)) s)
/-- SLLI (R149). -/
def execSlli (b : Bench7) (rd ra : Reg) (n : BitVec 5) (s : State) : Out :=
  .next (aluOp b rd [ra] (fun c => c.reg ra <<< n.toNat) s)
/-- SRLI (R149). -/
def execSrli (b : Bench7) (rd ra : Reg) (n : BitVec 5) (s : State) : Out :=
  .next (aluOp b rd [ra] (fun c => c.reg ra >>> n.toNat) s)
/-- SRAI (R149). -/
def execSrai (b : Bench7) (rd ra : Reg) (n : BitVec 5) (s : State) : Out :=
  .next (aluOp b rd [ra] (fun c => (c.reg ra).sshiftRight n.toNat) s)
/-- ADDI (R150): the sign-extended immediate is added. -/
def execAddi (b : Bench7) (rd ra : Reg) (imm : BitVec 16) (s : State) : Out :=
  .next (aluOp b rd [ra] (fun c => c.reg ra + sext imm) s)
/-- ANDI (R150): AND with the zero-extended immediate. -/
def execAndi (b : Bench7) (rd ra : Reg) (imm : BitVec 16) (s : State) : Out :=
  .next (aluOp b rd [ra] (fun c => c.reg ra &&& zext imm) s)
/-- ORI (R150). -/
def execOri (b : Bench7) (rd ra : Reg) (imm : BitVec 16) (s : State) : Out :=
  .next (aluOp b rd [ra] (fun c => c.reg ra ||| zext imm) s)
/-- XORI (R150). -/
def execXori (b : Bench7) (rd ra : Reg) (imm : BitVec 16) (s : State) : Out :=
  .next (aluOp b rd [ra] (fun c => c.reg ra ^^^ zext imm) s)
/-- SLTI (R150): signed compare with the sign-extended immediate. -/
def execSlti (b : Bench7) (rd ra : Reg) (imm : BitVec 16) (s : State) : Out :=
  .next (aluOp b rd [ra] (fun c => flagW ((c.reg ra).slt (sext imm))) s)
/-- SLTIU (R150): unsigned compare with the sign-extended immediate. -/
def execSltiu (b : Bench7) (rd ra : Reg) (imm : BitVec 16) (s : State) : Out :=
  .next (aluOp b rd [ra] (fun c => flagW ((c.reg ra).ult (sext imm))) s)
/-- LUI (R150): the immediate shifted left by 16. -/
def execLui (b : Bench7) (rd : Reg) (imm : BitVec 16) (s : State) : Out :=
  .next (aluOp b rd [] (fun _ => zext imm <<< 16) s)

end Sys2Proof.Machine
end

