-- ==== Sys2Proof/Machine/Mesh.lean ====
section
/-! DEFINITION. The meshes of the NoC (R373 to R375, R378 to R381, R387 to R391): where endpoints sit, the tree that a packet takes, the
input buffers with their credits, the arbiter of a router output, and one cycle of a mesh. -/

namespace Sys2Proof.Machine

/-! ### Geometry (R373, R374, R380, R381) -/

/-- The router in column `x` and row `y`, both counted from 1; 0 and 17, and 0 and 9, are those of the edge routers. -/
def nodeAt (x y : Nat) : Nat := 18 * y + x
/-- The column of a router, as `nodeAt` counts it. -/
def nodeX (v : Nat) : Nat := v % 18
/-- The row of a router. -/
def nodeY (v : Nat) : Nat := v / 18
/-- The router of bench `b`. -/
def benchNode (b : Nat) : Nat := nodeAt (b % 16 + 1) (b / 16 + 1)
/-- A mesh router, not an edge router. -/
def inMesh (v : Nat) : Bool := decide (0 < nodeX v ∧ nodeX v < 17 ∧ 0 < nodeY v ∧ nodeY v < 9)
/-- The bench at a mesh router. -/
def nodeBench (v : Nat) : Nat := 16 * (nodeY v - 1) + (nodeX v - 1)

/-- The router of an endpoint in traffic with another one. A module serves a bench of its columns in the bench's own column (R381), a bench
of a module that is down in the column nearest to that module (R484), and a slice in its first or last column (R473; for reads as for
snoops: DESIGN CHOICE, log 124). -/
def Endp.node (e other : Endp) : Nat :=
  match e with
  | .bench b => benchNode b
  | .foreman => nodeAt 1 0
  | .slice i => if i < 8 then nodeAt 0 (i + 1) else nodeAt 17 (i - 8 + 1)
  | .port p => nodeAt (p + 1) 9
  | .hpp m => match other with
    | .bench b => nodeAt ((if b % 16 / 4 = m then b % 16 else if m < b % 16 / 4 then 4 * m + 3 else 4 * m) + 1) 0
    | .slice i => nodeAt ((if i < 8 then 4 * m else 4 * m + 3) + 1) 0
    | _ => nodeAt (4 * m + 1) 0

/-- The mesh router that an edge router is joined to; a mesh router is its own (R373). -/
def joined (v : Nat) : Nat := nodeAt (min 16 (max 1 (nodeX v))) (min 8 (max 1 (nodeY v)))

/-- One step from `a` toward `b`. -/
def toward (a b : Nat) : Nat := if a < b then a + 1 else if b < a then a - 1 else a

/-- The next router of a packet from router `v` to router `d`: into the mesh, along X, then along Y, and out to an edge (R380). -/
def nextNode (v d : Nat) : Nat :=
  let j := joined d
  if v = d then d
  else if !inMesh v then joined v
  else if nodeX v ≠ nodeX j then nodeAt (toward (nodeX v) (nodeX j)) (nodeY v)
  else if nodeY v ≠ nodeY j then nodeAt (nodeX v) (toward (nodeY v) (nodeY j))
  else d

/-- The branches of a multicast at router `v`, from the mesh router `s` of its source, to the routers `ds` of its targets (R387): along the
source's row, along each column that holds a target, and out at each target (`v` itself). -/
def branches (s : Nat) (ds : List Nat) (v : Nat) : List Nat :=
  if !inMesh v then [joined v] else
    let x := nodeX v
    let y := nodeY v
    let row := y = nodeY s
    let east := row && decide (nodeX s ≤ x) && ds.any fun d => x < nodeX d
    let west := row && decide (x ≤ nodeX s) && ds.any fun d => nodeX d < x
    let north := decide (nodeY s ≤ y) && ds.any fun d => nodeX d = x && y < nodeY d
    let south := decide (y ≤ nodeY s) && ds.any fun d => nodeX d = x && nodeY d < y
    (if east then [nodeAt (x + 1) y] else []) ++ (if west then [nodeAt (x - 1) y] else []) ++
      (if north then [nodeAt x (y + 1)] else []) ++ (if south then [nodeAt x (y - 1)] else []) ++
      (if ds.contains v then [v] else [])

/-- The router at which a packet enters its mesh. -/
def Pkt.start (p : Pkt) : Nat := p.src.node (p.dst.headD p.src)
/-- The routers at which its copies leave. -/
def Pkt.ends (p : Pkt) : List Nat := p.dst.map fun d => d.node p.src

/-- The outputs that the packet takes at router `v`; `v` itself is the way out to an endpoint there. -/
def Pkt.outs (p : Pkt) (v : Nat) : List Nat :=
  match p.dst with
  | [_] => [nextNode v (p.ends.headD v)]
  | _ => branches (joined p.start) p.ends v

/-- The steps of the packet's tree: each a router and one of its outputs. -/
def Pkt.treeFrom (p : Pkt) : Nat → List Nat → List (Nat × Nat)
  | 0, _ => []
  | fuel + 1, vs =>
    let es := vs.flatMap fun v => (p.outs v).map fun o => (v, o)
    if es.isEmpty then [] else es ++ p.treeFrom fuel ((es.filter fun e => e.1 ≠ e.2).map (·.2))

/-- All the steps of the packet: at most 25 along any path (R396). -/
def Pkt.tree (p : Pkt) : List (Nat × Nat) := p.treeFrom 26 [p.start]

/-- The direction of a step: 0 east, 1 west, 2 north, 3 south (R642), 4 out to an endpoint of the router. -/
def stepDir (v o : Nat) : Nat :=
  if v = o then 4 else if nodeX v < nodeX o then 0 else if nodeX o < nodeX v then 1 else if nodeY v < nodeY o then 2 else 3

/-- The input of router `o` at which a step from `v` arrives: from its east, west, north or south neighbour, or 4 from an endpoint. -/
def stepInput (v o : Nat) : Nat := if v = o then 4 else stepDir o v

/-- The link of a step, where it leaves a mesh router. -/
def stepLink (mesh : NocMesh) (e : Nat × Nat) : Option NocLink :=
  if inMesh e.1 && e.1 != e.2 then
    some { mesh, router := BitVec.ofNat 7 (nodeBench e.1), dir := BitVec.ofNat 2 (stepDir e.1 e.2) }
  else none

/-- Whether the packet's route crosses a dead link (R638). -/
def Noc.cut (n : Noc) (mesh : NocMesh) (p : Pkt) : Bool :=
  !n.dead.isEmpty && p.tree.any fun e => match stepLink mesh e with | some l => n.dead.contains l | none => false

/-! ### Buffers and credits (R375, R378, R379) -/

/-- Mesh code of R642. -/
def meshCode : NocMesh → Nat
  | .req => 0 | .rsp => 1 | .snp => 2 | .dat => 3
/-- The meshes. -/
def meshes : List NocMesh := [.req, .rsp, .snp, .dat]
/-- Flits that one buffer holds (R375). -/
def bufRoom : NocMesh → Nat
  | .dat => 4 | _ => 2
/-- The number of the buffer of an input of a router for a virtual network or channel. -/
def bufKey (mesh : NocMesh) (v input vc : Nat) : Nat := ((meshCode mesh * 180 + v) * 5 + input) * 4 + vc
/-- The number of a router output. -/
def outKey (mesh : NocMesh) (v o : Nat) : Nat := (meshCode mesh * 180 + v) * 5 + stepDir v o
/-- The packets of a mesh. -/
def Noc.of (n : Noc) : NocMesh → List Pkt
  | .req => n.req | .rsp => n.rsp | .snp => n.snp | .dat => n.dat
/-- Change the packets of a mesh. -/
def Noc.set (n : Noc) (mesh : NocMesh) (f : List Pkt → List Pkt) : Noc :=
  match mesh with
  | .req => { n with req := f n.req }
  | .rsp => { n with rsp := f n.rsp }
  | .snp => { n with snp := f n.snp }
  | .dat => { n with dat := f n.dat }
/-- Change one packet of a mesh. -/
def Noc.mod (n : Noc) (mesh : NocMesh) (uid : Nat) (f : Pkt → Pkt) : Noc :=
  n.set mesh fun l => l.map fun p => if p.uid = uid then f p else p

/-- A flit at the head of a buffer: the router, the input, the packet, and the flit's number. -/
structure Head where
  node  : Nat
  input : Nat
  pkt   : Pkt
  flit  : Nat
  deriving DecidableEq, Repr

/-- The heads of the buffers of a mesh. -/
def Noc.heads (n : Noc) (mesh : NocMesh) : List Head :=
  n.buf.filterMap fun e =>
    if e.1 / 3600 = meshCode mesh then
      match e.2 with
      | (u, i) :: _ => ((n.of mesh).find? fun p => p.uid = u).map fun p => { node := e.1 / 20 % 180, input := e.1 / 4 % 5, pkt := p, flit := i }
      | [] => none
    else none

/-- An output holds a credit for the packet's channel, and no other transfer holds the channel there (R379). -/
def Noc.credit (n : Noc) (mesh : NocMesh) (p : Pkt) (v o : Nat) : Bool :=
  v = o ||
    (decide ((tget [] n.buf (bufKey mesh o (stepInput v o) p.vc)).length < bufRoom mesh) &&
      match tget none n.hold (4 * outKey mesh v o + p.vc) with | none => true | some u => decide (u = p.uid))

/-- A head that can advance: every branch that it takes has a credit (R388). -/
def Noc.ready (n : Noc) (mesh : NocMesh) (h : Head) : Bool := (h.pkt.outs h.node).all fun o => n.credit mesh h.pkt h.node o

/-! ### Arbitration (R390) -/

/-- The turn of an input at an output: how far it lies behind the input that last won, in the order east, west, north, south, local; at
reset that is the local one (R404; DESIGN CHOICE, log 127). -/
def Noc.turnOf (n : Noc) (mesh : NocMesh) (v o input : Nat) : Nat := (input + 9 - tget 4 n.turn (outKey mesh v o)) % 5

/-- Head `a` goes before head `b` at an output: the higher AGE, then the nearer turn. -/
def Noc.first (n : Noc) (mesh : NocMesh) (o : Nat) (a b : Head) : Bool :=
  decide (b.pkt.age < a.pkt.age) ||
    (a.pkt.age == b.pkt.age && decide (n.turnOf mesh a.node o a.input < n.turnOf mesh b.node o b.input))

/-- A ready head wins every output that it takes, among the ready heads of the mesh. -/
def Noc.wins (n : Noc) (mesh : NocMesh) (ready : List Head) (h : Head) : Bool :=
  (h.pkt.outs h.node).all fun o =>
    !ready.any fun k => k.node == h.node && k != h && (k.pkt.outs k.node).contains o && n.first mesh o k h

/-! ### One cycle -/

/-- A flit that has won moves: to the next routers, or out to its endpoint. -/
def Noc.move (mesh : NocMesh) (n : Noc) (h : Head) : Noc :=
  let n := { n with buf := tmod [] n.buf (bufKey mesh h.node h.input h.pkt.vc) fun l => l.drop 1 }
  (h.pkt.outs h.node).foldl (fun (n : Noc) o =>
    let n := { n with turn := tset 4 n.turn (outKey mesh h.node o) h.input }
    if o = h.node then n.mod mesh h.pkt.uid fun p => { p with due := p.due - 1 }
    else
      let k := bufKey mesh o (stepInput h.node o) h.pkt.vc
      { n with
        buf := tset [] n.buf k (tget [] n.buf k ++ [(h.pkt.uid, h.flit)])
        hold := tset none n.hold (4 * outKey mesh h.node o + h.pkt.vc) (if h.flit + 1 = h.pkt.flits then none else some h.pkt.uid) }) n

/-- Flits enter the local input buffer of their source's router: per router and channel one a cycle, of the oldest packet (R391). -/
def Noc.enter (n : Noc) (mesh : NocMesh) : Noc :=
  ((n.of mesh).foldl (fun (acc : Noc × List Nat) p =>
    let k := bufKey mesh p.start 4 p.vc
    if p.left = 0 || acc.2.contains k then acc
    else if (tget [] acc.1.buf k).length < bufRoom mesh then
      (({ acc.1 with buf := tset [] acc.1.buf k (tget [] acc.1.buf k ++ [(p.uid, p.flits - p.left)]) } : Noc).mod mesh p.uid fun p =>
        { p with left := p.left - 1 }, k :: acc.2)
    else (acc.1, k :: acc.2)) (n, [])).1

/-- One cycle of a mesh. -/
def Noc.cycle (n : Noc) (mesh : NocMesh) : Noc :=
  if (n.of mesh).isEmpty then n else
    let ready := (n.heads mesh).filter fun h => n.ready mesh h
    ((ready.filter fun h => n.wins mesh ready h).foldl (Noc.move mesh) n).enter mesh

/-- One cycle of every mesh. -/
def Noc.tick (n : Noc) : Noc := meshes.foldl Noc.cycle n

/-! ### Reaching the endpoint -/

/-- Another packet's flit stands before the packet in a buffer of its way, or holds a channel of it. -/
def Noc.behind (n : Noc) (mesh : NocMesh) (p : Pkt) : Bool :=
  p.tree.any fun e =>
    let input := if e.1 = p.start then 4 else 5
    let here (i : Nat) : Bool := match tget [] n.buf (bufKey mesh e.1 i p.vc) with | (u, _) :: _ => u != p.uid | [] => false
    (if input = 4 then here 4 else false) ||
      (e.1 != e.2 && (match tget [] n.buf (bufKey mesh e.2 (stepInput e.1 e.2) p.vc) with | (u, _) :: _ => u != p.uid | [] => false)) ||
      match tget none n.hold (4 * outKey mesh e.1 e.2 + p.vc) with | some u => u != p.uid | none => false

/-- A flit that waits at a router of the packet's way wants the same output and goes before it (R390). -/
def Noc.loses (n : Noc) (mesh : NocMesh) (p : Pkt) : Bool :=
  let ready := (n.heads mesh).filter fun h => h.pkt.uid != p.uid && n.ready mesh h
  let tree := p.tree
  tree.any fun e =>
    let input := match tree.find? fun f => f.2 = e.1 && f.1 != f.2 with | some f => stepInput f.1 f.2 | none => 4
    ready.any fun h => h.node = e.1 && (h.pkt.outs h.node).contains e.2 &&
      n.first mesh e.2 h { node := e.1, input, pkt := p, flit := 0 }

/-- The packet's older companion in the order of R391: the same mesh and channel, the same source, and a common destination. -/
def Pkt.sameWay (a b : Pkt) : Bool := a.src = b.src && a.vc = b.vc && a.dst.any b.dst.contains

/-- A packet can reach its endpoint now: no older packet of its way is under way, and no flit in the mesh is before it. -/
def Noc.canReach (n : Noc) (mesh : NocMesh) (i : Nat) : Bool :=
  match (n.of mesh)[i]? with
  | none => false
  | some p => !((n.of mesh).take i).any p.sameWay && (p.due = 0 || (!n.behind mesh p && !n.loses mesh p))

/-- The packet has reached its endpoint: it leaves the mesh, and the arbiters of its way have granted it. -/
def Noc.reached (n : Noc) (mesh : NocMesh) (p : Pkt) : Noc :=
  let tree := p.tree
  let n := n.set mesh fun l => l.filter fun q => q.uid ≠ p.uid
  if p.due = 0 then n else
    { n with
      buf := (n.buf.map fun e => if e.1 / 3600 = meshCode mesh then (e.1, e.2.filter fun f => f.1 ≠ p.uid) else e).filter fun e => !e.2.isEmpty
      hold := n.hold.filter fun e => e.2 ≠ some p.uid
      turn := tree.foldl (fun t e =>
        let input := match tree.find? fun f => f.2 = e.1 && f.1 != f.2 with | some f => stepInput f.1 f.2 | none => 4
        tset 4 t (outKey mesh e.1 e.2) input) n.turn }

/-! ### Injection -/

/-- Flits of a packet (R375, R383): a DAT transfer has one for each 64 bytes, and a multicast a route flit. -/
def Body.flits : Body → Nat
  | .load .. | .miss _ => 1
  | .store .. | .dowel .. | .read _ | .write _ | .op _ | .look _ => 2
  | .word .. | .grant _ | .done .. | .snoop _ | .reply _ => 1
  | .data _ b _ | .fill _ b _ => max 1 ((b.length + 63) / 64)
  | .wdata _ | .mdata _ => 1

/-- Put a packet on a mesh with AGE 0 (R389); `n`: the flits of a DAT transfer whose bytes the packet does not hold. -/
def State.inject (s : State) (mesh : NocMesh) (src : Endp) (dst : List Endp) (vc part : Nat) (secure : Bool) (body : Body) (n : Nat := 0) : State :=
  let f := max n body.flits
  let p : Pkt := { uid := s.noc.next, src, dst, vc, part, secure, flits := f, left := f, due := f * dst.length, body }
  { s with noc := ({ s.noc with next := s.noc.next + 1 } : Noc).set mesh fun l => l ++ [p] }

/-- A detected fault of the NoC is reported to the Foreman; it has no event (R400, R402, R403). -/
def State.nocFault (s : State) : State := { s with noc := { s.noc with told := s.noc.told + 1 } }

/-- The router state as a clamp holds it (R30, R398): the flits in every buffer, held channels and turns. -/
def Noc.image (n : Noc) : List Nat :=
  (n.buf.flatMap fun e => e.1 :: e.2.flatMap fun f => [f.1, f.2]) ++ (n.hold.flatMap fun e => [e.1, e.2.getD 0]) ++ n.turn.flatMap fun e => [e.1, e.2]

end Sys2Proof.Machine
end

