-- ==== Sys2Proof/Machine/Fence.lean ====
section
/-! DEFINITION. The Address Fence (R459 to R468), the capture of its faults (R485), interrupt messages
(R478 to R480), the accesses of the Foreman to host memory (R477, R486), and the lines of the Veneer cache
(R340 to R347). -/

namespace Sys2Proof.Machine

/-- Module `m`. -/
def State.hpp (s : State) (m : Nat) : Hpp := tget {} s.hpps m
/-- Change module `m`. -/
def State.modHpp (s : State) (m : Nat) (f : Hpp → Hpp) : State := { s with hpps := tmod {} s.hpps m f }
/-- A module that works (R484). -/
def Hpp.works (h : Hpp) : Bool := h.up && !h.down
/-- The lowest-numbered working module, which the Foreman uses (R477). -/
def State.foremanModule (s : State) : Option Nat := [0, 1, 2, 3].find? fun m => (s.hpp m).works
/-- The working module nearest to `m`, the lower-numbered on a tie (R484). -/
def State.moduleNear (s : State) (m : Nat) : Option Nat :=
  [0, 1, 2, 3].findSome? fun d =>
    if d ≤ m && (s.hpp (m - d)).works then some (m - d)
    else if m + d ≤ 3 && (s.hpp (m + d)).works then some (m + d) else none
/-- The module that bench `b` uses (R381, R484). -/
def State.benchModule (s : State) (b : Nat) : Option Nat := s.moduleNear (colOf b / 4)

/-! ### Host memory -/

/-- Whether any byte of `n` bytes from `a` lies in one of the ranges. -/
def inRanges (l : List (Nat × Nat)) (a n : Nat) : Bool := l.any fun r => decide (r.1 < a + n) && decide (a ≤ r.2)

/-- The ranges of at most one 4 KiB page each that make up `n` bytes from `a`. -/
def pageCuts : Nat → Nat → Nat → List (Nat × Nat)
  | 0, _, _ => []
  | fuel + 1, a, n =>
    if n = 0 then [] else
      let k := min n (4096 - a % 4096)
      (a, k) :: pageCuts fuel (a + k) (n - k)

/-- The page ranges of `n` bytes from `a`. -/
def pagesOf (a n : Nat) : List (Nat × Nat) := pageCuts (n / 4096 + 2) a n

/-! ### The Veneer cache (R340 to R347) -/

/-- The slice of a physical line number (R340). -/
def sliceOf (l : Nat) : Nat := (l % 16) ^^^ (l / 2 ^ 15 % 16) ^^^ (l / 2 ^ 19 % 16)
/-- The set of a physical line number. -/
def setOf (l : Nat) : Nat := l / 16 % 2048
/-- The tag of a physical line number. -/
def tagOf (l : Nat) : Nat := l / 2 ^ 15 % 2 ^ 30
/-- The set of the whole cache that holds a line: slice * 2048 + set. -/
def fullSet (l : Nat) : Nat := sliceOf l * 2048 + setOf l
/-- The key of way `w` of a set of the cache. -/
def vkey (fs w : Nat) : Nat := fs * 16 + w

/-- The ways in which a partition may look up or allocate: its own, but for those under invalidation (R344, R345). -/
def Tenant.liveWays (t : Tenant) : List Nat :=
  (List.range 16).filter fun w => t.ways.getLsbD w && !(t.waysBusy && t.waysInv.getLsbD w)

/-- The way of partition `p` that holds a line (R345). -/
def State.veneerHit (s : State) (p l : Nat) : Option Nat :=
  (s.ten p).liveWays.find? fun w =>
    match tfind s.veneer.lines (vkey (fullSet l) w) with | some v => decide (v.tag = tagOf l) | none => false

/-- A hit sets the line's reference bit and gives its data (R345). -/
def State.veneerRead (s : State) (w l : Nat) : State × List Byte :=
  match tfind s.veneer.lines (vkey (fullSet l) w) with
  | some v => ({ s with veneer := { s.veneer with lines := tput (vkey (fullSet l) w) { v with ref := true } s.veneer.lines } }, v.data)
  | none => (s, [])

/-- The code word of data word `i` of a line of the cache, and that of its tag and state, by the line's key (R348). -/
def vdata (key i : Nat) : Nat := 16 * key + i
/-- See `vdata`. -/
def vtag (key : Nat) : Nat := 2 ^ 23 + key
/-- The line that a code word belongs to. -/
def vline (k : Nat) : Nat := if k < 2 ^ 23 then k / 16 else k - 2 ^ 23
/-- The address of a code word in its slice: way, then set, then byte, as R682 lays them out. -/
def vaddr (k : Nat) : Nat :=
  let set := vline k / 16 % 2048
  if k < 2 ^ 23 then vline k % 16 * 2 ^ 18 + set * 128 + k % 16 * 8 else vline k % 16 * 2 ^ 13 + set * 4

/-- Install a line in the ways of partition `p` (R345), unless its set or slice has been removed (R370). -/
def State.veneerFill (s : State) (p l : Nat) (data : List Byte) : State :=
  let ways := (s.ten p).liveWays
  let fs := fullSet l
  let v := s.veneer
  if ways.isEmpty || v.gone.contains fs || v.goneSlices.contains (sliceOf l) || (s.veneerHit p l).isSome then s else
    let at? (w : Nat) : Option VLine := tfind v.lines (vkey fs w)
    let put (w : Nat) (ls : Tab VLine) : State :=
      { s with veneer := { v with
          lines := tput (vkey fs w) { tag := tagOf l, data } ls, used := true, ecc := v.ecc.filter fun e => vline e.1 ≠ vkey fs w } }
    match ways.find? fun w => (at? w).isNone with
    | some w => put w v.lines
    | none => match ways.find? fun w => match at? w with | some x => !x.ref | none => false with
      | some w => put w v.lines
      | none =>
        let ls := ways.foldl (fun t w => match tfind t (vkey fs w) with
          | some x => tput (vkey fs w) { x with ref := false } t | none => t) v.lines
        put (ways.headD 0) ls

/-- Fills in progress that `which` names, by partition and line, are not installed when they come (R367). -/
def State.dropFills (s : State) (which : Nat → Nat → Bool) : State :=
  { s with veneer := { s.veneer with looks := s.veneer.looks.map fun k =>
      { k with fills := k.fills.map fun f => if which k.part f.1 then (f.1, false) else f } } }

/-- A Veneer set is removed from allocation, and with the 65th of a slice the slice (R635, R370, R642). -/
def State.removeSet (s : State) (fs : Nat) : State :=
  if s.veneer.gone.contains fs then s else
    let sl := fs / 2048
    let gone := s.veneer.gone ++ [fs]
    let n := (gone.filter fun g => g / 2048 = sl).length
    let s : State := { s with veneer := { s.veneer with gone, lines := s.veneer.lines.filter fun e => e.1 / 16 ≠ fs } }
    let s := s.logAll srcForeman 0x86 (w32 sl) (w32 (fs % 2048)) (w32 n) 0x10
    if n = 65 then
      (({ s with veneer := { s.veneer with
          goneSlices := s.veneer.goneSlices ++ [sl], lines := s.veneer.lines.filter fun e => e.1 / 16 / 2048 ≠ sl } } : State).logAll
        srcForeman 0x87 (w32 sl) 0 0)
    else s

/-- A code word of the Veneer cache is read and meets the error that it holds, if any: one wrong bit is corrected, and more invalidate
the set's lines; an error that stays, or errors of the set in two patrol passes in a row, remove the set (R368, R370, R633, R635).
A pass of a slice is a pass over its data (DESIGN CHOICE, log 69). -/
def State.veneerErr (s : State) (k : Nat) : State :=
  let fs := vline k / 16
  let sl := fs / 2048
  let v := s.veneer
  let tag := b2n (2 ^ 23 ≤ k)
  let site := w32 (4 + tag + (0x80 + sl) * 256)
  let bad := v.stuck.contains k
  match tget Ecc.ok v.ecc k with
  | .ok | .poison => s
  | .single =>
    let c := sl + 16 * tag
    let n := tget 0 v.corrN c + 1
    let due := bad || match tget none v.corrAt c with | none => true | some t => decide (t + 1024 ≤ s.now)
    let s : State := { s with veneer := { v with
      ecc := tset .ok v.ecc k .ok, corrN := tset 0 v.corrN c (if due then 0 else n)
      corrAt := if due then tset none v.corrAt c (some s.now) else v.corrAt } }
    let s := if due then s.logAll srcForeman 0x80 site (w32 (vaddr k)) (w32 n) else s
    if bad then s.removeSet fs else s
  | .double =>
    let pass := tget 0 v.passes sl
    let again := bad || decide (0 < pass ∧ tget 0 v.badAt fs = pass)
    let s : State := { s with veneer := { v with
      ecc := v.ecc.filter fun e => vline e.1 / 16 ≠ fs, badAt := tset 0 v.badAt fs (pass + 1)
      lines := v.lines.filter fun e => e.1 / 16 ≠ fs } }
    let s := s.logAll srcForeman 0x81 site (w32 (vaddr k)) (w32 (b2n again))
    if again then s.removeSet fs else s

/-- A lookup of lines reads the tags of their sets and the data of the lines that it finds there. -/
def State.veneerLook (s : State) (ls : List Nat) : State :=
  if s.veneer.ecc.isEmpty then s else
    ls.foldl (fun (s : State) l =>
      let s := (List.range 16).foldl (fun (s : State) w => s.veneerErr (vtag (vkey (fullSet l) w))) s
      (List.range 16).foldl (fun (s : State) w =>
        match tfind s.veneer.lines (vkey (fullSet l) w) with
        | some x => if x.tag = tagOf l then (List.range 16).foldl (fun (s : State) i => s.veneerErr (vdata (vkey (fullSet l) w) i)) s else s
        | none => s) s) s

/-- Invalidate a line in every way that holds it (R318, R347): the tags are read for it, and a fill in progress is not installed (R367). -/
def State.veneerKill (s : State) (l : Nat) : State :=
  let s := if s.veneer.ecc.isEmpty then s else (List.range 16).foldl (fun (s : State) w => s.veneerErr (vtag (vkey (fullSet l) w))) s
  let ls := (List.range 16).foldl (fun t w =>
    match tfind t (vkey (fullSet l) w) with
    | some x => if x.tag = tagOf l then tdel (vkey (fullSet l) w) t else t
    | none => t) s.veneer.lines
  ({ s with veneer := { s.veneer with lines := ls } } : State).dropFills fun _ k => k = l

/-- The physical lines that `n` bytes from `a` touch. -/
def linesOf (a n : Nat) : List Nat :=
  if n = 0 then [] else (List.range ((a + n - 1) / 128 + 1 - a / 128)).map (a / 128 + ·)

/-- A device write to host memory: the bytes land and every overlapped Veneer line goes (R318, R342). -/
def State.hostStore (s : State) (pa : Nat) (bytes : List Byte) : State :=
  let s := { s with host := { s.host with mem := s.host.mem.setBytes pa bytes } }
  (linesOf pa bytes.length).foldl (fun s l => s.veneerKill l) s

/-! ### Translation (R463 to R467) -/

/-- The kinds of host access (R463). `update` is a SCATTER_ADD element, which needs both rights. -/
inductive Access where
  | read | write | exec | update
  deriving DecidableEq, Repr

/-- What the Fence answers: a fault of a kind of R485, or the physical address. -/
inductive Xlat where
  | fault (kind : Nat)
  | ok (pa : Nat)
  deriving DecidableEq, Repr

/-- Whether an entry maps a virtual address of its partition. -/
def XEntry.maps (e : XEntry) (va : Nat) : Bool :=
  if e.big then decide (e.va / 2 ^ 21 = va / 2 ^ 21) else decide (e.va / 2 ^ 12 = va / 2 ^ 12)

/-- The permission check of R463: a fault kind, or none. -/
def XEntry.denied (e : XEntry) : Access → Option Nat
  | .read => if e.r then none else some 6
  | .write => if e.w then none else some 7
  | .exec => if e.x then none else some 8
  | .update => if !e.r then some 6 else if !e.w then some 7 else none

/-- The physical address of a virtual address under an entry. -/
def XEntry.pa (e : XEntry) (va : Nat) : Nat := e.base + va % (if e.big then 2 ^ 21 else 2 ^ 12)

/-- A table read (R463): the entry at an address, of the 64 bytes that the read fetches, or none when the host refuses or poisons it
(WALK_ERROR, R485). -/
def State.walkRead (s : State) (pa : Nat) : Option Nat :=
  let bad (l : List (Nat × Nat)) : Bool := inRanges l (pa / 64 * 64) 64
  if bad s.host.refuse || bad s.host.poison then none else some (leNat (s.host.mem.getBytes pa 8))

/-- The walk of R463 for a virtual address: an entry, or a fault kind. -/
def State.walk (s : State) (p va : Nat) : Except Nat XEntry :=
  match s.walkRead ((s.ten p).xroot + 8 * (va / 2 ^ 21)) with
  | none => .error 9
  | some l1 =>
    let rsv (e : Nat) : Bool := fld e 11 5 != 0 || fld e 63 52 != 0
    if bitN l1 0 = 0 then .error 3
    else if bitN l1 4 = 1 then
      if rsv l1 || fld l1 20 12 != 0 then .error 5
      else .ok { part := p, va := va / 2 ^ 21 * 2 ^ 21, big := true, base := fld l1 51 12 * 4096
                 r := bitN l1 1 = 1, w := bitN l1 2 = 1, x := bitN l1 3 = 1 }
    else if rsv l1 || fld l1 3 1 != 0 then .error 5
    else match s.walkRead (fld l1 51 12 * 4096 + 8 * (va / 2 ^ 12 % 512)) with
    | none => .error 9
    | some l2 =>
      if bitN l2 0 = 0 then .error 4
      else if rsv l2 || bitN l2 4 = 0 then .error 5
      else .ok { part := p, va := va / 2 ^ 12 * 2 ^ 12, big := false, base := fld l2 51 12 * 4096
                 r := bitN l2 1 = 1, w := bitN l2 2 = 1, x := bitN l2 3 = 1 }

/-- The table reads of that walk: a second one where the level-1 entry names a table (R463). -/
def State.walkReads (s : State) (p va : Nat) : Nat :=
  match s.walkRead ((s.ten p).xroot + 8 * (va / 2 ^ 21)) with
  | some l1 => if bitN l1 0 = 1 && bitN l1 4 = 0 && fld l1 3 1 = 0 && fld l1 11 5 = 0 && fld l1 63 52 = 0 then 2 else 1
  | none => 1

/-- Fill a translation-cache entry of partition `p` (R465). -/
def Hpp.fillXlat (h : Hpp) (p : Nat) (e : XEntry) : Hpp :=
  let idx := (List.range 128).map (128 * p + ·)
  match idx.find? fun i => (tfind h.xlat i).isNone with
  | some i => { h with xlat := tput i e h.xlat }
  | none => match idx.find? fun i => match tfind h.xlat i with | some x => !x.ref | none => false with
    | some i => { h with xlat := tput i e h.xlat, hits := h.hits.filter fun k => k.1 ≠ i && k.2 ≠ i }
    | none =>
      let t := idx.foldl (fun t i => match tfind t i with | some x => tput i { x with ref := false } t | none => t) h.xlat
      { h with xlat := tput (128 * p) e t, hits := h.hits.filter fun k => k.1 ≠ 128 * p && k.2 ≠ 128 * p }

/-- Translate a virtual address of partition `p` through module `m` (R463, R465, R467). Each table read of a walk moves 64 bytes for
the partition (R463, R605). -/
def State.translate (s : State) (m p va : Nat) (k : Access) : State × Xlat :=
  let t := s.ten p
  if !t.xen then (s, .fault 1)
  else if 2 ^ t.xspan ≤ va then (s, .fault 2)
  else
    let h := s.hpp m
    let hit := ((List.range 128).map (128 * p + ·)).filter fun i =>
      match tfind h.xlat i with | some e => e.maps va | none => false
    let give (s : State) (e : XEntry) : State × Xlat :=
      match e.denied k with | some f => (s, .fault f) | none => (s, .ok (e.pa va))
    match hit with
    | i :: others =>
      match tfind h.xlat i with
      | none => (s, .fault 3)
      | some e =>
        let s := s.modHpp m fun h => { h with xlat := tput i { e with ref := true } h.xlat }
        let s := others.foldl (fun s j =>
          if (s.hpp m).hits.contains (i, j) then s else
            (s.modHpp m fun h => { h with hits := h.hits ++ [(i, j)] }).log (srcModule m) 0x14 p
              (w32 va) (w32 (va / 2 ^ 32)) (w32 m)) s
        give s e
    | [] =>
      let s := s.hppEnergy p (64 * s.walkReads p va)
      match s.walk p va with
      | .error f => (s, .fault f)
      | .ok e => give (s.modHpp m fun h => h.fillXlat p e) e

/-! ### Interrupts and faults -/

/-- The fault of R485 as INFO0 and TEN_FAULT_INFO hold it. -/
def faultWord (src kind acc : Nat) : Word := w32 (2 ^ 31 + src * 2 ^ 16 + kind * 2 ^ 8 + acc)

/-- ACCESS of a fault (R485). -/
def accessCode (k : Access) (kind : Nat) : Nat :=
  match k with
  | .read => 0 | .write => 1 | .exec => 2 | .update => if kind = 7 then 1 else 0

/-- Capture a refused access and set the FENCE cause, without the message that the cause may send (R485, R478). -/
def State.captureRaw (s : State) (p src kind acc va : Nat) (logIt : Bool) : State :=
  let s := s.modTen p fun t =>
    let t := if bit t.faultInfo 31 then { t with faultInfo := t.faultInfo ||| 0x40000000 }
      else { t with faultInfo := faultWord src kind acc, faultAddr := va }
    { t with irqStatus := t.irqStatus ||| 4 }
  if logIt then s.log (BitVec.ofNat 8 src) 0x15 p (faultWord src kind acc) (w32 va) (w32 (va / 2 ^ 32)) else s

/-- A module can send a header: it holds a credit (R454), and one of its 4,096 tags is free (R481). -/
def Hpp.maySend (h : Hpp) : Bool := decide (h.used < 512) && decide ((h.reqs.filter (·.sent)).length < 4096)

/-- The first tag from `nextTag` on that no outstanding request has. -/
def Hpp.freeTag (h : Hpp) : Nat :=
  (((List.range 4096).map fun i => (h.nextTag + i) % 4096).find? fun t => !h.reqs.any fun r => r.sent && r.tag = t).getD h.nextTag

/-- A request enters a module; its header leaves with a tag when it may (R454). -/
def Hpp.push (h : Hpp) (r : HostReq) : Hpp :=
  if h.maySend then
    let t := h.freeTag
    { h with reqs := h.reqs ++ [{ r with tag := t, sent := true }], nextTag := (t + 1) % 4096, used := h.used + 1, txSeq := h.txSeq + 1 }
  else { h with reqs := h.reqs ++ [{ r with sent := false }] }

/-- Send an interrupt message of partition `p`, or note the trigger while one is in flight (R479, R480, R486). With no working module it
counts as refused, without a capture (R484). -/
def State.irqSend (s : State) (p : Nat) : State :=
  let t := s.ten p
  if t.irqSent then s.modTen p fun t => { t with irqAgain := true }
  else match s.foremanModule with
  | none => s.modTen p fun t => { t with irqStatus := t.irqStatus ||| 4 }
  | some m =>
    if t.irqAddr % 4 ≠ 0 then s.captureRaw p 0x80 5 1 t.irqAddr true
    else
      let (s, x) := s.translate m p t.irqAddr .write
      match x with
      | .fault k => s.captureRaw p 0x80 k 1 t.irqAddr true
      | .ok pa =>
        (s.modHpp m fun h => h.push { tag := 0, use := .irq p, part := p, pa, len := 4, write := true, data := leBytes 4 t.irqData.toNat }).modTen
          p fun t => { t with irqSent := true, irqAgain := false }

/-- The causes that are set and not masked (R479). -/
def Tenant.irqLive (t : Tenant) : BitVec 5 := t.irqStatus &&& ~~~t.irqMask

/-- Carry out a change that may set causes; a message leaves when STATUS AND NOT MASK becomes non-zero (R479). -/
def State.withCauses (s : State) (p : Nat) (f : State → State) : State :=
  let s' := f s
  if (s.ten p).irqLive = 0 && (s'.ten p).irqLive != 0 then s'.irqSend p else s'

/-- Set interrupt causes of partition `p` (R478). -/
def State.cause (s : State) (p : Nat) (bits : BitVec 5) : State :=
  s.withCauses p fun s => s.modTen p fun t => { t with irqStatus := t.irqStatus ||| bits }

/-- Record a refused access of partition `p` (R485, R486). -/
def State.fenceFault (s : State) (p src kind acc va : Nat) (logIt : Bool := true) : State :=
  s.withCauses p fun s => s.captureRaw p src kind acc va logIt

/-! ### The Foreman's accesses (R477, R486) -/

/-- What a read of the Foreman comes to. -/
inductive Reply where
  /-- Refused, or poisoned (R486). -/
  | refused
  /-- The bytes, and whether any of them carries poison. -/
  | data (bytes : List Byte) (poison : Bool)
  deriving DecidableEq, Repr

/-- The pages of an access by `src`, each translated and checked before any byte moves (R464): its offset, physical address and
length, or none when one is refused. -/
def State.fencePages (s : State) (m p src va n : Nat) (k : Access) (logIt : Bool) : State × Option (List (Nat × Nat × Nat)) :=
  (pagesOf va n).foldl (fun (acc : State × Option (List (Nat × Nat × Nat))) c =>
    match acc with
    | (s, none) => (s, none)
    | (s, some l) =>
      let (s, x) := s.translate m p c.1 k
      match x with
      | .fault f => (s.fenceFault p src f (accessCode k f) c.1 logIt, none)
      | .ok pa => (s, some (l ++ [(c.1 - va, pa, c.2)]))) (s, some [])

/-- The first page of an access that the host refuses (R485). -/
def State.hostRefuses (s : State) (l : List (Nat × Nat × Nat)) : Option (Nat × Nat × Nat) :=
  l.find? fun c => inRanges s.host.refuse c.2.1 c.2.2

/-- Read host memory of partition `p` for the Foreman or a bench (`src`) through module `m`. -/
def State.fenceRead (s : State) (m p src va n : Nat) (k : Access) : State × Reply :=
  match s.fencePages m p src va n k true with
  | (s, none) => (s, .refused)
  | (s, some l) => match s.hostRefuses l with
    | some c => (s.fenceFault p src 10 (accessCode k 10) (va + c.1), .refused)
    | none => (s.hppEnergy p n, .data (l.flatMap fun c => s.host.mem.getBytes c.2.1 c.2.2) (l.any fun c => inRanges s.host.poison c.2.1 c.2.2))

/-- A read of the Foreman; with no working module it is refused without a capture (R484). -/
def State.foremanRead (s : State) (p va n : Nat) (k : Access) : State × Reply :=
  match s.foremanModule with
  | none => (s, .refused)
  | some m => s.fenceRead m p 0x80 va n k

/-- A read of the Foreman whose poison counts as a refusal (R486). -/
def State.foremanClean (s : State) (p va n : Nat) : State × Option (List Byte) :=
  match s.foremanRead p va n .read with
  | (s, .data bs false) => (s, some bs)
  | (s, _) => (s, none)

/-- A write of the Foreman; every page is checked before any byte lands (R464). True when it lands. -/
def State.foremanWrite (s : State) (p va : Nat) (bytes : List Byte) (logIt : Bool := true) : State × Bool :=
  match s.foremanModule with
  | none => (s, false)
  | some m => match s.fencePages m p 0x80 va bytes.length .write logIt with
    | (s, none) => (s, false)
    | (s, some l) => match s.hostRefuses l with
      | some c => (s.fenceFault p 0x80 10 1 (va + c.1) logIt, false)
      | none => ((l.foldl (fun s c => s.hostStore c.2.1 ((bytes.drop c.1).take c.2.2)) s).hppEnergy p bytes.length, true)

end Sys2Proof.Machine
end

