-- ==== Sys2Proof/Machine/Route.lean ====
section
/-! DEFINITION. How messages leave the device over Molarga: coordinates (R407), routing (R427 to R429),
flits, credits and the replay buffer (R412 to R415), and the answers of R419. -/

namespace Sys2Proof.Machine

/-- Port `p`. -/
def State.port (s : State) (p : Nat) : Port := tget {} s.ports p
/-- Change port `p`. -/
def State.modPort (s : State) (p : Nat) (f : Port → Port) : State := { s with ports := tmod {} s.ports p f }
/-- The ports, in order (R405). -/
def allPorts : List Nat := List.range 16

/-- Coordinate `k` of a device identifier (R407). -/
def coord (dev k : Nat) : Nat := dev / 8 ^ k % 8
/-- Dimension `k` of the torus (R423). -/
def State.dim (s : State) (k : Nat) : Dim := tget {} s.links.dims k
/-- A dimension that works as a line (R423). -/
def Dim.isLine (d : Dim) : Bool := d.line || d.size = 1

/-- A port that carries flits. -/
def Port.live (p : Port) : Bool := p.st = .active && !p.retrain

/-- Steps from `c` to `d` in the + direction (R427). -/
def ahead (size c d : Nat) : Nat := (d + 8 * size - c) % size

/-- Whether a message goes in the + direction (R427). -/
def Dim.plus (d : Dim) (c dest : Nat) : Bool :=
  if d.isLine then !decide (ahead d.size c d.gap < ahead d.size c dest)
  else decide (ahead d.size c dest ≤ d.size / 2)

/-- The ACTIVE port of dimension `k` that faces one way, preferring member `j` of the pair (R427). -/
def State.portFacing (s : State) (k : Nat) (plus : Bool) (j : Nat) : Option Nat :=
  let base := if plus then 4 * k else 4 * k + 2
  [base + j, base + (1 - j)].find? fun p => (s.port p).live

/-- The next hop of a message: its dimension, direction and port, or none when it is refused (R427, R428). -/
def State.nextHop (s : State) (dest src : Nat) : Option (Nat × Bool × Nat) :=
  let me := s.dev.id.toNat
  match [0, 1, 2, 3].find? fun k => coord me k ≠ coord dest k with
  | none => none
  | some k =>
    let d := s.dim k
    let j := (src ^^^ dest) % 2
    let dir := d.plus (coord me k) (coord dest k)
    let pick : Option (Bool × Nat) := match s.portFacing k dir j with
      | some p => some (dir, p)
      | none => if d.isLine then none else (s.portFacing k (!dir) j).map fun p => (!dir, p)
    match pick with
    | none => none
    | some (dir, p) =>
      let peer := match (s.port p).peer with | some t => coord t.peerId.toNat k | none => coord dest k
      let dist (a b : Nat) : Nat := if dir then ahead d.size a b else ahead d.size b a
      if 0 < dist (coord me k) (coord dest k) ∧ dist (coord me k) (coord dest k) < dist (coord me k) peer then none
      else some (k, dir, p)

/-- The virtual channel of a hop (R429): `held` is the channel that the message holds in this dimension. -/
def State.hopVc (s : State) (k : Nat) (plus : Bool) (p : Nat) (rsp held : Bool) : Nat :=
  let me := coord s.dev.id.toNat k
  let peer := match (s.port p).peer with | some t => coord t.peerId.toNat k | none => me
  let cross : Bool := if plus then decide (peer < me) else decide (me < peer)
  (if rsp then 2 else 0) + (if cross || held then 1 else 0)

/-- Whether a MOP is a response (R419). -/
def isRsp (mop : Nat) : Bool := mop = 2 || mop = 6

/-! ### Sending flits -/

/-- Credits return with a flit: up to 255 of the lowest-numbered channel that has some (R412, R415). -/
def Port.giveBack (p : Port) : Port :=
  match [0, 1, 2, 3].find? fun v => tget 0 p.owed v ≠ 0 with
  | some v => { p with owed := tset 0 p.owed v (tget 0 p.owed v - 255) }
  | none => p

/-- Send a flit: it takes a credit and the next sequence number, returns credits, and stays in the replay buffer (R413, R415). -/
def Port.transmit (p : Port) (f : Flit) : Port :=
  { p.giveBack with
    replay := p.replay ++ [{ f with seq := p.txSeq, frees := none, inp := none }], txSeq := (p.txSeq + 1) % 4096
    freed := p.freed ++ f.frees.toList, back := p.back ++ f.inp.toList
    sends := if p.replay.isEmpty then 1 else p.sends
    used := if f.cred && !f.paid then tset 0 p.used f.vc (tget 0 p.used f.vc + 1) else p.used }

/-- Send what waits, in order within each channel, while credits and the replay buffer allow (R413, R415). -/
def Port.pump (p : Port) : Port :=
  if !p.live then p else
    (p.queue.foldl (fun (acc : Port × List Nat) f =>
      let (p, blocked) := acc
      let cls := if f.cred then f.vc else 4
      if blocked.contains cls || decide (512 ≤ p.replay.length) || (f.cred && !f.paid && decide (256 ≤ tget 0 p.used f.vc)) then
        ({ p with queue := p.queue ++ [f] }, cls :: blocked)
      else (p.transmit f, blocked)) ({ p with queue := [] }, [])).1

/-- `n` flits leave the buffer of a virtual channel of port `p`: their credits go back to the peer (R415). -/
def State.unbuffer (s : State) (p vc n : Nat) : State :=
  s.modPort p fun q => { q with owed := tset 0 q.owed vc (tget 0 q.owed vc + n) }

/-- A flit leaves its input port's buffer for another place in the device (R415). -/
def State.leaves (s : State) (f : Flit) : State := match f.inp with | some e => s.unbuffer e.1 e.2 1 | none => s

/-- Change a port and send what can leave; an ORIGIN slot whose last byte has left is released (R320), and a forwarded flit that has
left frees its place in the input port's buffer (R415). -/
def State.pumpPort (s : State) (p : Nat) (f : Port → Port) : State :=
  let s := s.modPort p fun q => (f q).pump
  let out := (s.port p).freed
  let back := (s.port p).back
  let s := out.foldl (fun (s : State) e => s.releaseSlot e.1 e.2) (s.modPort p fun q => { q with freed := [], back := [] })
  back.foldl (fun (s : State) e => s.unbuffer e.1 e.2 1) s

/-- Put a flit on a port. -/
def State.putFlit (s : State) (p : Nat) (f : Flit) : State :=
  (s.pumpPort p fun q => { q with queue := q.queue ++ [f] }).flitEnergy f.part

/-- A scheduled flit goes on as credited traffic by dimension order; `held` is the channel that it holds in the dimension of its input
port `p`. A flit that no port can carry now waits in the device (R54; DESIGN CHOICE, log 121). -/
def State.forwardFlit (s : State) (p : Nat) (f : Flit) : State :=
  match s.nextHop f.dest f.src with
  | none => { s with links := { s.links with held := s.links.held ++ [(p, f)] } }
  | some (k, plus, out) =>
    s.putFlit out { f with cred := true, vc := s.hopVc k plus out false (decide (f.vc = 1) && decide (p / 4 = k)) }

/-- Every scheduled flit that waits for a port tries again. -/
def State.forwardHeld (s : State) : State :=
  let l := s.links.held
  l.foldl (fun (s : State) e => s.forwardFlit e.1 e.2) { s with links := { s.links with held := [] } }

/-- The payloads of a message: 16 header bytes and 224 bytes of data, then 240 each (R417). -/
def msgPayloads (m : OutMsg) : List (List Byte) :=
  let hdr := leBytes 4 m.w0.toNat ++ leBytes 4 m.w1.toNat ++ leBytes 4 m.w2.toNat ++ leBytes 4 m.w3.toNat
  (hdr ++ m.data.take 224) :: chunks 240 (m.data.drop 224)

/-- The flits of a message on a channel (R412, R417). -/
def msgFlits (me : Nat) (m : OutMsg) (vc : Nat) : List Flit :=
  let ps := msgPayloads m
  ps.mapIdx fun i b =>
    { kind := if ps.length = 1 then 4 else if i = 0 then 1 else if i + 1 = ps.length then 3 else 2
      vc, cred := true, poison := m.poison, dest := m.dev, src := m.src.getD me, part := m.part, payload := b }

/-- Route a message onto a port; none when the device refuses it (R427, R428). `from?`: the port and the channel of a forwarded one. -/
def State.routeOut (s : State) (m : OutMsg) (from? : Option (Nat × Nat)) : Option State :=
  match s.nextHop m.dev (m.src.getD s.dev.id.toNat) with
  | none => none
  | some (k, plus, p) =>
    let held := match from? with | some (q, vc) => decide (q / 4 = k) && decide (vc % 2 = 1) | none => false
    some ((msgFlits s.dev.id.toNat m (s.hopVc k plus p (isRsp m.mop) held)).foldl (fun s f => s.putFlit p { f with inp := from? }) s)

/-- The ACK of a request with a status (R417, R419): it returns to the requester's device, bench and tag. -/
def ackOf (m : OutMsg) (me status : Nat) : OutMsg :=
  { mop := 6, dev := m.src.getD me, part := m.part, w0 := wput (wput m.w0 3 0 6) 7 4 0, w1 := 0, w2 := w32 status, w3 := 0
    src := some me }

/-- Send or forward a message; a refused request is answered with status 4, and a refused response discarded (R427, R428). -/
def State.emit (s : State) (m : OutMsg) (from? : Option (Nat × Nat) := none) : State :=
  match s.routeOut m from? with
  | some s => s
  | none =>
    let s := match from? with | some (q, vc) => s.unbuffer q vc (msgPayloads m).length | none => s
    if isRsp m.mop || m.src.isNone || m.src = some s.dev.id.toNat then s
    else (s.routeOut (ackOf m s.dev.id.toNat 4) none).getD s

end Sys2Proof.Machine
end

