-- ==== Sys2Proof/Machine/Dowels.lean ====
section
/-! DEFINITION. Dowels and mailboxes: the operations of the dowel unit (R553 to R555, R576 to R578) and
the entries of a mailbox (R558, R559, R581). -/

namespace Sys2Proof.Machine

/-- The reached test (R553). -/
def Dowel.reached (d : Dowel) : Bool := !bit (d.count - d.target) 31

/-- Dowel `i` of partition `p` as a dowel of the device (R552). -/
def dowelNo (p i : Nat) : Nat := 32 * p + i

/-- The POST that notifies a remote waiter (R578). -/
def notifyMsg (s : State) (p dev bench i : Nat) : OutMsg :=
  { mop := 4, dev, part := p, w0 := w32 (4 + bench * 256), w1 := 0
    w2 := w32 (0xD0E10000 + i), w3 := w32 s.dev.id.toNat }

/-- Run the reached test on dowel `i` of partition `p`, and notify every waiter when it passes (R554). -/
def State.dowelTest (s : State) (p i : Nat) : State :=
  let d := s.dowel (dowelNo p i)
  if d.reached then
    let s := (maskList d.waits).foldl (fun s b => s.setPend b 1) s
    let far := (s.ten p).remote.filter fun r => r.2.2 = i
    let s := far.foldl (fun s (r : Nat × Nat × Nat) => s.emit (notifyMsg s p r.1 r.2.1 i)) s
    let s := s.modTen p fun t => { t with remote := t.remote.filter fun r => r.2.2 ≠ i }
    s.modDowel (dowelNo p i) fun d => { d with waits := 0 }
  else s

/-- DADD: the count grows by the operand modulo 2^32 (R555). -/
def State.dowelAdd (s : State) (p i : Nat) (v : Word) : State :=
  (s.modDowel (dowelNo p i) fun d => { d with count := d.count + v }).dowelTest p i
/-- DSETT (R555). -/
def State.dowelTarget (s : State) (p i : Nat) (v : Word) : State :=
  (s.modDowel (dowelNo p i) fun d => { d with target := v }).dowelTest p i
/-- DWAIT of bench `b` (R555). -/
def State.dowelWait (s : State) (p i b : Nat) : State :=
  (s.modDowel (dowelNo p i) fun d => { d with waits := maskSet d.waits b true }).dowelTest p i
/-- DCLR: the count becomes 0 and the waiters are dropped without notice; the test then runs (R555, R583). -/
def State.dowelClear (s : State) (p i : Nat) : State :=
  let s := s.modTen p fun t => { t with remote := t.remote.filter fun r => r.2.2 ≠ i }
  (s.modDowel (dowelNo p i) fun d => { d with count := 0, waits := 0 }).dowelTest p i

/-- An operation of the dowel unit for bench `b` of this device, with the word that it answers (R555, R557): 0 DADD, 1 DSETT, 2 DWAIT,
3 DRD, 4 DCLR, 5 the target, 6 whether it is reached. -/
def State.dowelOp (s : State) (p op i : Nat) (v : Word) (b : Nat) : State × Word :=
  let d := s.dowel (dowelNo p i)
  match op with
  | 0 => (s.dowelAdd p i v, d.count)
  | 1 => (s.dowelTarget p i v, 0)
  | 2 => (s.dowelWait p i b, 0)
  | 3 => (s, d.count)
  | 4 => (s.dowelClear p i, 0)
  | 5 => (s, d.target)
  | _ => (s, if d.reached then 1 else 0)

/-- The operation of a load from the dowel window, with its dowel; none beyond the dowels (R557). -/
def dowelLoad (off : Nat) : Option (Nat × Nat) :=
  if 0x200 ≤ off then none
  else some (off / 16, match off % 16 with | 0 => 3 | 4 => 5 | 8 => 0 | _ => 6)

/-- The operation of a store to the dowel window; none where it is ignored (R557). -/
def dowelStore (off : Nat) : Option (Nat × Nat) :=
  if 0x200 ≤ off then none
  else match off % 16 with | 4 => some (off / 16, 1) | 8 => some (off / 16, 0) | 12 => some (off / 16, 2) | _ => none

/-- A POST lands at bench `b` (R581, R578): its status. A notification sets JIPEND.DOWEL and makes no entry. -/
def State.postTo (s : State) (b : Nat) (dev : DevId) (sb : Bench7) (w0 w1 : Word) (note : Bool) : State × Nat :=
  if note && wfld w0 31 16 = 0xD0E1 then (s.setPend b 1, 0)
  else if 16 ≤ (s.bench b).mailbox.length then (s, 5)
  else ((s.modBench b fun v =>
    { v with
      mailbox := v.mailbox ++ [{ dev, bench := sb, w0, w1 }]
      ecc := if v.ecc.isEmpty then [] else eccWrite v.ecc siteMailbox (16 * ((v.mailAt + v.mailbox.length) % 16)) 16 false }).setPend b 0, 0)

/-- A load from the mailbox window at an offset (R559). A word of the head entry that is in error is corrected or reported, and an
uncorrectable entry reads with VALID = 1 and payloads of 0 (R585, R368, R369); its source fields are open (log 6). -/
def State.mailRead (s : State) (b off : Nat) : State × Word :=
  let v := s.bench b
  if off = 0 then (s, w32 v.mailbox.length)
  else match v.mailbox with
  | [] => (s, 0)
  | e :: _ =>
    if off ≠ 4 ∧ off ≠ 8 ∧ off ≠ 12 then (s, 0) else
    let l := v.eccIn siteMailbox (16 * v.mailAt) 16
    let s := s.eccReports b l
    if eccBad l then
      let (k, s) := s.draw
      (s, if off = 4 then 0x80000000 ||| (Config.freeWord k &&& 0x0007FFFF) else 0)
    else
      (s, if off = 4 then w32 (2 ^ 31 + e.bench.toNat * 2 ^ 12 + e.dev.toNat) else if off = 8 then e.w0 else e.w1)

/-- A store to the mailbox window (R559): MB_POP removes the head entry. -/
def State.mailWrite (s : State) (b off : Nat) : State :=
  if off = 16 then s.modBench b fun v =>
    match v.mailbox with
    | [] => v
    | _ :: rest => { v with mailbox := rest, mailAt := (v.mailAt + 1) % 16 }
  else s

end Sys2Proof.Machine
end

