-- ==== Sys2Proof/Machine/LoadStore.lean ====
section
/-! DEFINITION. Scalar loads and stores: the regions of R145 and R146, the byte-lane rotate of R120, the
patch buffer (R122 to R125), and the windows of the mailbox, the dowels and stream engine control. -/

namespace Sys2Proof.Machine

/-- The regions a scalar access reaches (R145, R146). -/
inductive Region where
  | drawer (off : Nat)
  | idrawer (off : Nat)
  | mailbox (off : Nat)
  | dowel (off : Nat)
  | seCtl (off : Nat)
  | window (bench off : Nat)
  | nowhere
  deriving DecidableEq, Repr

/-- The region of an address (R145). -/
def regionOf (a : Nat) : Region :=
  if a < 0x00200000 then .drawer a
  else if 0x00400000 ≤ a ∧ a < 0x00410000 then .idrawer (a - 0x00400000)
  else if 0x00800000 ≤ a ∧ a < 0x00810000 then .mailbox (a - 0x00800000)
  else if 0x00810000 ≤ a ∧ a < 0x00820000 then .dowel (a - 0x00810000)
  else if 0x00820000 ≤ a ∧ a < 0x00830000 then .seCtl (a - 0x00820000)
  else if 0x10000000 ≤ a ∧ a < 0x20000000 then .window ((a - 0x10000000) / 0x200000) ((a - 0x10000000) % 0x200000)
  else .nowhere

/-- The effective address (R151). -/
def effAddr (c : Ctx) (ra : Reg) (imm : BitVec 16) : Word := c.reg ra + sext imm

/-- The cause that a scalar access of `size` bytes raises, the lowest code first (R97, R120, R122, R135, R145, R146).
`store` and `full`: a store, and the patch buffer holds 8 entries. -/
def accessCause (s : State) (b : Nat) (store : Bool) (size a : Nat) : Option Nat :=
  let c := s.cc b
  let r := regionOf a
  let priv : Bool := match r with
    | .drawer o => decide (0x1E0000 ≤ o) && c.mode != mSecure
    | .window _ o => decide (0x1E0000 ≤ o) && c.mode != mSecure
    | .idrawer _ => store && c.mode = mUser
    | .seCtl _ => c.mode = mUser
    | _ => false
  let unaligned := a % size ≠ 0
  let align : Bool := match r with
    | .drawer _ => unaligned && (store || !c.urot)
    | .idrawer _ => unaligned || (store && size != 4)
    | .mailbox _ | .dowel _ | .seCtl _ => unaligned || size != 4
    | _ => unaligned
  let fence : Bool := match r with
    | .nowhere => true
    | .window t _ => !s.usable t || !(s.ten (s.actsFor b)).mask.getLsbD t
    | _ => false
  let full : Bool := match r with
    | .idrawer _ => store && decide (8 ≤ (s.bench b).patch.length)
    | _ => false
  if priv then some exPRIV else if align then some exALIGN else if fence then some exFENCE
  else if full then some exPATCH else none

/-- Sign- or zero-extend the low `8 * size` bits of a number (R151). -/
def extend (size : Nat) (sx : Bool) (x : Nat) : Word :=
  let y := x % 2 ^ (8 * size)
  if sx then w32 (uval 32 (sval (8 * size) y)) else w32 y

/-- Rotate a 32-bit number right by `8 * k` bits. -/
def rotr8 (x k : Nat) : Nat := x / 2 ^ (8 * k) + (x % 2 ^ (8 * k)) * 2 ^ (32 - 8 * k)

/-- The value that a load of `size` bytes at drawer offset `o` reads from the bytes of the aligned word: that word rotated right
by the low address bits (R120), which is the plain value for an aligned access. -/
def wordValue (w : List Byte) (o size : Nat) (sx : Bool) : Word := extend size sx (rotr8 (leNat w) (o % 4))

/-- The value that a load of `size` bytes at drawer offset `o` reads from a memory. -/
def drawerValue (m : Mem) (o size : Nat) (sx : Bool) : Word := wordValue (m.getBytes (o / 4 * 4) 4) o size sx

/-- A byte of the instruction drawer as a load reads it: the newest store in the patch buffer prevails (R123). -/
def Bench.idByte (b : Bench) (o : Nat) : Byte :=
  match b.patch.reverse.find? fun e => e.1 = o / 4 * 4 with
  | some e => (leBytes 4 e.2.toNat).getD (o % 4) 0
  | none => b.idrawer.get o

/-- A load from the drawer of the bench itself, through port A. -/
def loadDrawer (s : State) (b : Bench7) (rd : Reg) (o size : Nat) (sx : Bool) : Res :=
  let v := s.bench b.toNat
  let l := v.eccIn siteDrawer (o / 4 * 4) 4
  if s.wipeHolds o size then .hold else
  let s := s.eccReports b.toNat l
  if eccBad l then .fail s else
    let (s, d) := s.jread b.toNat (o / 4 * 4) 4
    Res.reg s b rd (wordValue d o size sx)

/-- A request of bench `b` leaves on REQ for a word that RSP returns (R146, R556): the instruction is in flight until then, and its
register, none where `rd` is 0, is held. -/
def State.askWord (s : State) (b : Nat) (rd : Reg) (dst : Endp) (body : Nat → Body) : State :=
  let v := s.bench b
  (s.inject .req (.bench b) [dst] 0 (s.actsFor b) (v.cc.mode = mSecure) (body v.nextLoad)).modBench b fun v =>
    { v with
      nextLoad := v.nextLoad + 1
      flight := v.flight ++ [{ kind := .load rd.toNat v.nextLoad, snap := v.snap, started := true }] }

/-- The RSP of such a request returns (R146, R383): the register is written, in the work that has issued since too, and the instruction
commits. A response to one that was abandoned finds none. -/
def State.loadReturns (s : State) (b id : Nat) (x : Word) : State :=
  match (s.bench b).loading with
  | some { kind := .load r i, .. } =>
    if i ≠ id then s else
      let put (c : Ctx) : Ctx := c.setReg (BitVec.ofNat 5 r) x
      (s.modBench b fun v =>
        { v.modCtx v.curN put with
          flight := v.flight.map fun o =>
            if o.isLoad then { o with done := true } else { o with snap := { o.snap with ctx := put o.snap.ctx } } }).popDone b
  | _ => s

/-- The effect of a load that raises nothing. -/
def loadBody (b : Bench7) (rd : Reg) (size : Nat) (sx : Bool) (a : Nat) (s : State) : Res :=
  let v := s.bench b.toNat
  match regionOf a with
  | .drawer o => loadDrawer s b rd o size sx
  | .idrawer o =>
    let l := if v.patch.any fun e => e.1 = o / 4 * 4 then [] else v.eccIn siteIdrawer (o / 4 * 4) 4
    let s := s.eccReports b.toNat l
    if eccBad l then .fail s
    else Res.reg s b rd (extend size sx (leNat ((List.range size).map fun i => v.idByte (o + i))))
  | .mailbox o => let (s, x) := s.mailRead b.toNat o; Res.reg s b rd x
  | .dowel o => match dowelLoad o with
    | some (i, op) => .ok (s.askWord b.toNat rd .foreman fun id => .dowel op i 0 id)
    | none => Res.reg s b rd 0
  | .seCtl o =>
    Res.reg s b rd (if o < 0x80 then (v.rack (o / 32)).word (o % 32 / 4) else if o = 0x80 then v.seTags else 0)
  | .window t o =>
    if t = b.toNat then loadDrawer s b rd o size sx
    else .ok (s.askWord b.toNat rd (.bench t) fun id => .load o size sx id)
  | .nowhere => .hold

/-- Whether a load waits for retire: every one but a drawer load (R107, R151). -/
def loadWaits (b : Bench7) (ra : Reg) (imm : BitVec 16) (s : State) : Bool :=
  match regionOf (effAddr (s.cc b.toNat) ra imm).toNat with
  | .drawer _ => false
  | _ => true

/-- A load instruction (R151). -/
def loadOp (b : Bench7) (rd ra : Reg) (imm : BitVec 16) (size : Nat) (sx : Bool) (s : State) : State :=
  issue b .plain (loadWaits b ra imm) [rd, ra] (fun s =>
    let a := effAddr (s.cc b.toNat) ra imm
    match accessCause s b.toNat false size a.toNat with
    | some code => .exc code (some a)
    | none => loadBody b rd size sx a.toNat s) s

/-- A store to the drawer of the bench itself, which its Jig core sees; a part of an uncorrectable word is reported (R331). -/
def storeDrawer (s : State) (b o : Nat) (bytes : List Byte) : State :=
  (s.partReports b o bytes.length).modBench b fun v => (v.writeDrawer o bytes).see o bytes.length

/-- A store to stream engine control (R286, R289). -/
def seWrite (s : State) (b o : Nat) (v : Word) : State :=
  if o < 0x80 then
    let held := s.rackHeld b (o / 32)
    if o % 32 = 0 then s.modRack b (o / 32) fun r => r.write0 v
    else if o % 32 = 4 then s.modRack b (o / 32) fun r => r.write1 held v
    else s
  else s

/-- The effect of a store that raises nothing. -/
def storeBody (b : Bench7) (size a : Nat) (x : Word) (s : State) : Res :=
  let bytes := leBytes size x.toNat
  match regionOf a with
  | .drawer o => if s.wipeHolds o size then .hold else .ok (storeDrawer s b.toNat o bytes)
  | .idrawer o => .ok (s.modBench b.toNat fun v => { v with patch := v.patch ++ [(o, x)] })
  | .mailbox o => .ok (s.mailWrite b.toNat o)
  | .dowel o => match dowelStore o with
    | some (i, op) => .ok (s.askWord b.toNat 0 .foreman fun id => .dowel op i x id)
    | none => .ok s
  | .seCtl o => .ok (seWrite s b.toNat o x)
  | .window t o =>
    if t = b.toNat then (if s.wipeHolds o size then .hold else .ok (storeDrawer s b.toNat o bytes))
    else .ok (s.inject .req (.bench b.toNat) [.bench t] 0 (s.actsFor b.toNat) ((s.cc b.toNat).mode = mSecure) (.store o size x))
  | .nowhere => .hold

/-- A store instruction (R151). Every store waits for retire. -/
def storeOp (b : Bench7) (rs ra : Reg) (imm : BitVec 16) (size : Nat) (s : State) : State :=
  issue b .plain always [rs, ra] (fun s =>
    let c := s.cc b.toNat
    let a := effAddr c ra imm
    match accessCause s b.toNat true size a.toNat with
    | some code => .exc code (some a)
    | none => storeBody b size a.toNat (c.reg rs) s) s

/-- LB (R151): a sign-extended byte. -/
def execLb (b : Bench7) (rd ra : Reg) (imm : BitVec 16) (s : State) : Out := .next (loadOp b rd ra imm 1 true s)
/-- LBU (R151): a zero-extended byte. -/
def execLbu (b : Bench7) (rd ra : Reg) (imm : BitVec 16) (s : State) : Out := .next (loadOp b rd ra imm 1 false s)
/-- LH (R151, R120): a sign-extended half-word. -/
def execLh (b : Bench7) (rd ra : Reg) (imm : BitVec 16) (s : State) : Out := .next (loadOp b rd ra imm 2 true s)
/-- LHU (R151, R120): a zero-extended half-word. -/
def execLhu (b : Bench7) (rd ra : Reg) (imm : BitVec 16) (s : State) : Out := .next (loadOp b rd ra imm 2 false s)
/-- LW (R151, R120): a word. -/
def execLw (b : Bench7) (rd ra : Reg) (imm : BitVec 16) (s : State) : Out := .next (loadOp b rd ra imm 4 false s)
/-- SB (R151). -/
def execSb (b : Bench7) (rs ra : Reg) (imm : BitVec 16) (s : State) : Out := .next (storeOp b rs ra imm 1 s)
/-- SH (R151). -/
def execSh (b : Bench7) (rs ra : Reg) (imm : BitVec 16) (s : State) : Out := .next (storeOp b rs ra imm 2 s)
/-- SW (R151). -/
def execSw (b : Bench7) (rs ra : Reg) (imm : BitVec 16) (s : State) : Out := .next (storeOp b rs ra imm 4 s)

end Sys2Proof.Machine
end

