-- ==== Sys2Proof/Machine/Control.lean ====
section
/-! DEFINITION. Branches, jumps and loops (R103 to R111, R152 to R155), the system group (R156, R157),
and the events of the Jig core. -/

namespace Sys2Proof.Machine

/-- The predictor's counter for an address (R105). -/
def predIndex (pc : Word) : Nat := wfld pc 7 2

/-- A two-bit saturating counter after an outcome (R105; PRESUMED, log 12: the spec names the counters only). -/
def trainCounter (c : BitVec 2) (taken : Bool) : BitVec 2 :=
  if taken then (if c = 3 then 3 else c + 1) else (if c = 0 then 0 else c - 1)

/-- A conditional branch: its delay slot follows; the path after the slot is the predicted one (R103, R105, R152). -/
def branchOp (b : Bench7) (ra rb : Reg) (off : BitVec 16) (cond : Word → Word → Bool) (s : State) : State :=
  issue b .branch never [ra, rb] (fun s =>
    let n := b.toNat
    let c := s.cc n
    let taken := cond (c.reg ra) (c.reg rb)
    let k := tget 1 (s.bench n).pred (predIndex c.pc)
    let guess := !c.bpdis && decide (2 ≤ k.toNat)
    let target := c.pc + 4 * sext off
    let fall := c.pc + 8
    let s := s.modBench n fun v => { v with pred := tset 1 v.pred (predIndex c.pc) (trainCounter k taken) }
    let d : Delay :=
      { pc := c.pc, next := if guess then target else fall, other := some (if guess then fall else target)
        right := guess == taken }
    .ok (s.modCc n fun c => { c with delay := some d })) s

/-- A jump to a known target: its delay slot follows (R103, R153). -/
def jumpOp (b : Bench7) (uses : List Reg) (target : Ctx → Word) (link : Bool) (s : State) : State :=
  issue b .branch never uses (fun s =>
    let n := b.toNat
    let t := target (s.cc n)
    if t.toNat % 4 ≠ 0 then .exc exALIGN (some t)
    else .ok (s.modCc n fun c =>
      let c := { c with delay := some { pc := c.pc, next := t, other := none, right := true } }
      if link then c.setReg 31 (c.pc + 8) else c)) s

/-- BEQ (R152). -/
def execBeq (b : Bench7) (ra rb : Reg) (off : BitVec 16) (s : State) : Out :=
  .next (branchOp b ra rb off (fun x y => x == y) s)
/-- BNE (R152). -/
def execBne (b : Bench7) (ra rb : Reg) (off : BitVec 16) (s : State) : Out :=
  .next (branchOp b ra rb off (fun x y => x != y) s)
/-- BLT (R152): signed less. -/
def execBlt (b : Bench7) (ra rb : Reg) (off : BitVec 16) (s : State) : Out :=
  .next (branchOp b ra rb off (fun x y => x.slt y) s)
/-- BGE (R152): signed greater or equal. -/
def execBge (b : Bench7) (ra rb : Reg) (off : BitVec 16) (s : State) : Out :=
  .next (branchOp b ra rb off (fun x y => !x.slt y) s)
/-- BLTU (R152). -/
def execBltu (b : Bench7) (ra rb : Reg) (off : BitVec 16) (s : State) : Out :=
  .next (branchOp b ra rb off (fun x y => x.ult y) s)
/-- BGEU (R152). -/
def execBgeu (b : Bench7) (ra rb : Reg) (off : BitVec 16) (s : State) : Out :=
  .next (branchOp b ra rb off (fun x y => !x.ult y) s)
/-- J (R153). -/
def execJ (b : Bench7) (off : BitVec 26) (s : State) : Out :=
  .next (jumpOp b [] (fun c => c.pc + 4 * sext off) false s)
/-- JAL (R153): g31 takes the address after the delay slot. -/
def execJal (b : Bench7) (off : BitVec 26) (s : State) : Out :=
  .next (jumpOp b [31] (fun c => c.pc + 4 * sext off) true s)
/-- JR (R153). -/
def execJr (b : Bench7) (ra : Reg) (s : State) : Out := .next (jumpOp b [ra] (fun c => c.reg ra) false s)
/-- JALR (R153): `ga` is read before g31 is written. -/
def execJalr (b : Bench7) (ra : Reg) (s : State) : Out := .next (jumpOp b [ra, 31] (fun c => c.reg ra) true s)

/-- Set up loop level `lvl` with an end offset in instructions (R108, R155). -/
def loopOp (b : Bench7) (lvl : BitVec 2) (uses : List Reg) (count : Ctx → Word) (off : Nat) (s : State) : State :=
  issue b .control never uses (fun s =>
    let n := b.toNat
    let c := s.cc n
    let start := c.pc + 4
    let stop := c.pc + w32 (4 * off)
    if lvl = 3 ∨ stop.ult start then .exc exILLEGAL none
    else
      let k := lvl.toNat
      let cnt := count c
      .done (s.modCc n fun c =>
        { c with lstart := tset 0 c.lstart k start, lend := tset 0 c.lend k stop, lcnt := tset 0 c.lcnt k cnt })
        id (if cnt = 0 then some (stop + 4) else none)) s

/-- LOOP (R108): the count comes from a register. -/
def execLoop (b : Bench7) (lvl : BitVec 2) (rc : Reg) (off : BitVec 16) (s : State) : Out :=
  .next (loopOp b lvl [rc] (fun c => c.reg rc) off.toNat s)
/-- LOOPI (R155): the count is an immediate. -/
def execLoopi (b : Bench7) (lvl : BitVec 2) (cnt : BitVec 12) (off : BitVec 12) (s : State) : Out :=
  .next (loopOp b lvl [] (fun _ => zext cnt) off.toNat s)

/-! ### Control registers (R91) -/

/-- Whether a control register index is in the table of R91. -/
def jregOk (i : Nat) : Bool := i ≤ 10 || [16, 17, 18, 20, 21, 22, 24, 25, 26].contains i

/-- Whether the mode lacks the right to a control register (R91). -/
def jregPriv (m : BitVec 2) (i : Nat) : Bool :=
  if m = mUser then i ≤ 9 && i != 4
  else if m = mSuper then i == 6
  else false

/-- MFJ and MTJ on JSTAT, JEPC, JIEN, JIPEND and the loop registers wait for older instructions (R157). -/
def jregWaits (i : Nat) (_ : State) : Bool := [0, 1, 7, 8].contains i || decide (16 ≤ i)

/-- A control register of context `n` of bench `b` (R91 to R99). -/
def jregOf (s : State) (b n i : Nat) : Word :=
  let v := s.bench b
  let c := v.ctx n
  match i with
  | 0 => jstatRead c v.patch.length v.curN
  | 1 => c.jepc
  | 2 => c.jcause
  | 3 => c.jbadaddr
  | 4 => c.jmode
  | 5 => v.jvec
  | 6 => v.jsvec
  | 7 => c.jien
  | 8 => v.jipend
  | 9 => c.jscratch
  | 10 => w32 (min (tget {} s.cols (colOf b)).cyc 0xFFFFFFFF)
  | _ => if i < 20 then tget 0 c.lstart (i - 16) else if i < 24 then tget 0 c.lend (i - 20) else tget 0 c.lcnt (i - 24)

/-- A control register as MFJ reads it. -/
def jregRead (s : State) (b i : Nat) : Word := jregOf s b (s.bench b).curN i

/-- MTJ of a value by an instruction that executes in mode `m` (R91 to R99, R94, R101). -/
def jregWrite (s : State) (b i : Nat) (m : BitVec 2) (x : Word) : State :=
  match i with
  | 0 => s.modCc b fun c => { c with jstat := jstatWrite c m x }
  | 1 => s.modCc b fun c => { c with jepc := x }
  | 4 => if m = mUser then s else s.modCc b fun c => { c with jmode := wput c.jmode 1 0 (wfld x 1 0) }
  | 5 => s.modBench b fun v => { v with jvec := x &&& 0xFFFFFF00 }
  | 6 => s.modBench b fun v => { v with jsvec := x &&& 0xFFFFFF00 }
  | 7 => s.modCc b fun c => { c with jien := x &&& 0xFF }
  | 8 => s.modBench b fun v => { v with jipend := v.jipend &&& ~~~x }
  | 9 => s.modCc b fun c => { c with jscratch := x }
  | _ =>
    if i < 16 then s
    else if i < 20 then s.modCc b fun c => { c with lstart := tset 0 c.lstart (i - 16) x }
    else if i < 24 then s.modCc b fun c => { c with lend := tset 0 c.lend (i - 20) x }
    else s.modCc b fun c => { c with lcnt := tset 0 c.lcnt (i - 24) x }

/-- MFJ (R156): read a control register. -/
def execMfj (b : Bench7) (rd : Reg) (idx : BitVec 5) (s : State) : Out :=
  .next (issue b .plain (jregWaits idx.toNat) [rd] (fun s =>
    if !jregOk idx.toNat then .exc exILLEGAL none
    else if jregPriv (s.cc b.toNat).mode idx.toNat then .exc exPRIV none
    else Res.reg s b rd (jregRead s b.toNat idx.toNat)) s)

/-- MTJ (R156): write a control register; the write takes effect after the instruction's own loop-end test (R133, R157). -/
def execMtj (b : Bench7) (idx : BitVec 5) (ra : Reg) (s : State) : Out :=
  .next (issue b .plain (jregWaits idx.toNat) [ra] (fun s =>
    if !jregOk idx.toNat then .exc exILLEGAL none
    else if jregPriv (s.cc b.toNat).mode idx.toNat then .exc exPRIV none
    else
      let x := (s.cc b.toNat).reg ra
      let m := (s.cc b.toNat).mode
      .done s (fun s => jregWrite s b.toNat idx.toNat m x) none) s)

/-- SETMODE (R101): the mode changes after one further instruction. -/
def execSetmode (b : Bench7) (m : BitVec 2) (s : State) : Out :=
  .next (issue b .control never [] (fun s =>
    let c := s.cc b.toNat
    if m = 3 then .exc exILLEGAL none
    else if decide (m.toNat ≤ c.mode.toNat) || (c.mode = mSuper && m = mSecure && c.secEn && s.secureOk) then
      .done s (fun s => s.modCc b.toNat fun c => { c with modeShadow := some m }) none
    else .exc exPRIV none) s)

/-- ISYNC (R124): the patch buffer goes to the instruction drawer. -/
def execIsync (b : Bench7) (s : State) : Out :=
  .next (issue b .control always [] (fun s => .ok (s.modBench b.toNat Bench.flushPatch)) s)

/-- WSTROKE (R58, R59): in a real-time partition the task waits for the boundary and the bench switches, unless
the task holds the glue-up or runs a handler (R117). -/
def execWstroke (b : Bench7) (s : State) : Out :=
  .next (issue b .control always [] (fun s =>
    let n := b.toNat
    if s.isRt n then
      .done s (fun s =>
        let c := s.cc n
        let s := s.modCc n fun c => { c with status := .waiting, await := .boundary }
        let s := if c.glu || c.exl then s else s.switchTask n
        s.modBench n fun v => if (v.cur.map fun k => decide ((v.ctx k).status = .running)).getD false then v
          else { v with slackAt := some s.stroke.cycle }) none
    else .ok s) s)

/-- YIELD (R115, R117): the next READY task runs; with none, with a live glue-up or in a handler, nothing changes. -/
def execYield (b : Bench7) (s : State) : Out :=
  .next (issue b .control always [] (fun s =>
    let n := b.toNat
    let v := s.bench n
    if v.cc.glu || v.cc.exl || (v.nextReady v.curN).isNone then .ok s
    else .done s (fun s => (s.modCc n fun c => { c with status := .ready }).switchTask n) none) s)

/-- TEND (R118): the task ends; its boards are released and its context becomes EMPTY. -/
def execTend (b : Bench7) (s : State) : Out :=
  .next (issue b .control always [] (fun s =>
    let n := b.toNat
    let c := s.cc n
    if c.glu then .exc exILLEGAL none
    else if c.mode = mUser then .exc exPRIV none
    else .stop ((s.modBench n Bench.flushPatch).endTask n (s.bench n).curN .tend)) s)

/-- TRAP (R131): a system call; JEPC is the address that the loop-end test gives (R129, R135). -/
def execTrap (b : Bench7) (imm : BitVec 8) (s : State) : Out :=
  .next (issue b .control always [] (fun s =>
    let n := b.toNat
    let v := s.bench n
    let (c, epc) := loopEnd v.cc v.cc.pc (v.cc.pc + 4)
    .stop (s.modCc n fun _ =>
      c.saveShadow.enter v.jvec v.jsvec .syscall epc (jcauseOf .syscall 0 imm.toNat c.deadline))) s)

/-- ERET (R128): return from a handler. An ERET that stands at LENDn runs no loop-end test and leaves LCNTn (DESIGN CHOICE, log 105:
R128 and R109 both give the next address). -/
def execEret (b : Bench7) (s : State) : Out :=
  .next (issue b .control always [] (fun s =>
    let n := b.toNat
    let c := s.cc n
    if !c.exl then .exc exILLEGAL none
    else if c.mode = mUser then .exc exPRIV none
    else .stop (s.modCc n fun c =>
      let pm := c.pm
      let target := c.pmtarget
      let c := { c with pc := c.jepc }
      let c := ((c.setMode c.pmode).setJ 4 4 (b2n c.pie)).setJ 11 11 (b2n c.ple)
      let c := ((c.setJ 6 6 0).setJ 7 7 0).setJ 8 8 0
      if pm then { c with modeShadow := some target } else c)) s)

/-! ### Events of the Jig core -/

/-- Bench `b` has a task that runs or stalls, and can be interrupted. -/
def State.canTake (s : State) (b : Nat) : Bool :=
  s.alive && s.usable b && !(s.bench b).draining && !(s.bench b).clearing &&
    (s.bench b).cur.isSome && ((s.cc b).status = .running || (s.cc b).status = .stalled)

/-- INTERRUPT_ENTRY (R130): a pending enabled interrupt is taken between instructions. -/
def execInterruptEntry (b : Bench7) (s : State) : Out :=
  .next (if s.canTake b.toNat then s.interrupt b.toNat else s)

/-- DEADLINE_PENDING (R59, R135): a pending DEADLINE is taken before the task's next instruction, wherever that stands. -/
def execDeadlinePending (b : Bench7) (s : State) : Out :=
  let c := s.cc b.toNat
  .next (if s.canRun b.toNat && c.deadline && !c.exl then s.raise b.toNat exDEADLINE none else s)

/-- BRANCH_RESOLVE (R212, R213): the oldest predicted branch resolves. -/
def execBranchResolve (b : Bench7) (s : State) : Out :=
  .next (if s.alive then (s.resolveOne b.toNat).1 else s)

/-- MARQUETRY_COMPLETE (R175): the oldest operation of a unit ends; operations that waited for it start, and completed ones
commit in program order (R143). -/
def execMarquetryComplete (b : Bench7) (u : MUnit) (s : State) : Out :=
  .next (if s.alive then
    ((s.modBench b.toNat fun v => { v with flight := completeUnit u v.flight }).startOps b.toNat).popDone b.toNat
  else s)

end Sys2Proof.Machine
end

