-- ==== Sys2Proof/Machine/Tiles.lean ====
section
/-! DEFINITION. Tile instructions: shapes and ownership (R158 to R160, R188 to R197), BLD and BST
(R161 to R163, R203 to R206), and the glue-up with DRAIN (R164 to R168, R198 to R208). -/

namespace Sys2Proof.Machine

/-- Elements in a row of a board (R159). -/
def Board.perRow (d : Board) : Nat := d.rbytes * 8 / ewBits d.ew
/-- The element count E (R159). -/
def Board.count (d : Board) : Nat := d.rows * d.perRow
/-- The rows of a board as elements (R189). -/
def Board.elemRows (d : Board) : List (List Nat) :=
  (List.range d.rows).map fun r => elemsOf (ewBits d.ew) (d.data.getBytes (64 * r) d.rbytes)
/-- The elements of a board in row-major order (R189). -/
def Board.elems (d : Board) : List Nat := d.elemRows.flatten
/-- The board with the bytes of its rows written, inside its shape only (R190). -/
def Board.putRows (d : Board) (rows : List (List Byte)) : Board :=
  { d with data := (rows.zipIdx).foldl (fun m rk => m.setBytes (64 * rk.2) rk.1) d.data }
/-- The board with its rows written as elements. -/
def Board.putElemRows (d : Board) (rows : List (List Nat)) : Board := d.putRows (rows.map (bytesOf (ewBits d.ew)))
/-- Whether two boards have one shape. -/
def Board.sameShape (d e : Board) : Bool := d.rows == e.rows && d.rbytes == e.rbytes && d.ew == e.ew

/-- A field that encodes 1 to 64, with 0 meaning 64 (R159). -/
def n64 (x : BitVec 6) : Nat := if x = 0 then 64 else x.toNat

/-- A board that the running task may not name: another task's, or a marked one outside secure mode (R158, R196). -/
def boardPriv (v : Bench) (n : Nat) : Bool :=
  let d := v.boardV n
  (match d.owner with | some o => o != v.curN | none => false) || (d.secure && v.cc.mode != mSecure)

/-- A glue-up instruction outside secure mode while the glue-up is marked (R196). -/
def gluePriv (v : Bench) : Bool := v.glue.secure && v.cc.mode != mSecure

/-- A board that belongs to no task (R193). -/
def unowned (v : Bench) (n : Nat) : Bool := (v.boardV n).owner.isNone

/-- Words with errors among the first `els` elements of a board (R221, R230), in the buffer that holds its newest contents (R211). -/
def boardEccTo (v : Bench) (n els : Nat) : List (Nat × Ecc) :=
  let d := v.boardV n
  let base := match v.bufOf (.board n) with | some k => bufBase k | none => 4096 * n
  if v.ecc.isEmpty then [] else
    (List.range d.rows).flatMap fun r => v.eccIn siteBoards (base + 64 * r) (min d.rbytes (((els - r * d.perRow) * ewBits d.ew + 7) / 8))

/-- Words with errors inside the shape of a board (R221). -/
def boardEcc (v : Bench) (n : Nat) : List (Nat × Ecc) := boardEccTo v n (v.boardV n).count

/-- An instruction that writes a board or slot waits for retire when the shadow it stands in has used its two Marquetry operations
or has no free buffer (R107, R210), and outside a shadow, or where room must be made by resolving it, while an older result for its
destination still lies in a buffer. -/
def specWaits (b : Bench7) (marq : Bool) (d : Dest) (s : State) : Bool :=
  let v := s.bench b.toNat
  if v.inShadow && decide (v.shadowed < 4) then (marq && decide (2 ≤ v.shadowUnits)) || v.freeBuf.isNone else (v.bufOf d).isSome

/-- The instruction at the program counter as an operation in flight: what works on it, what it reads, and the bytes it permutes. -/
def Bench.op (v : Bench) (kind : OpKind) (reads : List Source) (bytes : Nat) : Op := { kind, snap := v.snap, reads, bytes }

/-- The result of operation `o` is the new content `d` of board `n`: in a shadow it waits in a buffer (R209). -/
def State.putBoard (s : State) (b n : Nat) (d : Board) (o : Op) : State :=
  let sec := decide ((s.cc b).mode = mSecure)
  match (s.bench b).nextBuf with
  | some k => (s.modBench b fun v => v.setBuf k d.parts sec).launch b { o with dest := .board n, buf := some k }
  | none => (s.modBench b fun v => v.placeBoard n d sec).launch b { o with dest := .board n }

/-- The result of operation `o` is the settings `img` of slot `n` (R209, R234). -/
def State.putSlot (s : State) (b n : Nat) (img : List Byte) (o : Op) : State :=
  let sec := decide ((s.cc b).mode = mSecure)
  match (s.bench b).nextBuf with
  | some k => (s.modBench b fun v => v.setBuf k [(0, img)] sec).launch b { o with dest := .slot n, buf := some k }
  | none => (s.modBench b fun v => v.placeSlot n ({ : Store }.setBytes 0 img) sec).launch b { o with dest := .slot n }

/-- Operation `o` writes bytes to the drawer at addresses in order: a later piece prevails where they overlap (R206). -/
def State.putDrawer (s : State) (b : Nat) (parts : List (Nat × List Byte)) (o : Op) : State :=
  let s := if (s.bench b).ecc.isEmpty then s else parts.foldl (fun (s : State) p => s.partReports b p.1 p.2.length) s
  (s.modBench b fun v => parts.foldl (fun v p => (v.writeDrawer p.1 p.2).see p.1 p.2.length) v).launch b
    { o with dest := .drawer (parts.map fun p => (p.1, p.2.length)) }

/-- Operation `o` changes glue-up rows. -/
def State.putGlue (s : State) (b : Nat) (g : Glue) (rows : List Nat) (o : Op) : State :=
  (s.modBench b fun v => { v with glue := { g with secure := g.secure || decide (v.cc.mode = mSecure) } }).launch b
    { o with dest := .glue rows }

/-- The elements that a faulty unit puts out: its bad lanes invert bits (R248). -/
def corrupt (bad : List (Nat × Nat)) (w : Nat) (xs : List Nat) : List Nat :=
  if bad.isEmpty then xs
  else xs.zipIdx.map fun x => bad.foldl (fun y f => if f.1 = x.2 % 256 then y ^^^ (f.2 % 2 ^ w) else y) x.1

/-- The multiset checksum over the elements read and those written (R236). A unit without a fault puts out the elements that it
reads (R225), so it passes. -/
def sumsPass (bad : List (Nat × Nat)) (read written : List Nat) : Bool :=
  bad.isEmpty || multisetSums read == multisetSums written

/-- Row addresses `ga + r * gb` modulo 2^32 (R203). -/
def rowAddrs (ga gb : Word) (n : Nat) : List Nat := (List.range n).map fun r => (ga + w32 r * gb).toNat

/-- The lowest address, in row and then byte order, that lies outside the drawer (R162). -/
def fenceAddr (rows : List Nat) (len : Nat) : Option Nat :=
  rows.findSome? fun a => if 0x200000 ≤ a then some a else if 0x200000 < a + len then some 0x200000 else none

/-- The lowest address, in row and then byte order, in the secure part (R162). -/
def secureAddr (rows : List Nat) (len : Nat) : Option Nat :=
  rows.findSome? fun a =>
    if 0x1E0000 ≤ a ∧ a < 0x200000 then some a
    else if a < 0x1E0000 ∧ 0x1E0000 < a + len then some 0x1E0000 else none

/-- The address exception of a tile access: cause and JBADADDR (R162). `eb` is the element width in bytes. -/
def tileAddr (mode : BitVec 2) (ga gb : Word) (eb : Nat) (rows : List Nat) (len : Nat) : Option (Nat × Word) :=
  match (if mode = mSecure then none else secureAddr rows len) with
  | some a => some (exPRIV, w32 a)
  | none =>
    if ga.toNat % eb ≠ 0 then some (exALIGN, ga)
    else if gb.toNat % eb ≠ 0 then some (exALIGN, ga + gb)
    else match fenceAddr rows len with
      | some a => some (exFENCE, w32 a)
      | none => none

/-- The exception of the lowest code among those that hold (R135); `addr` is the address exception, if any. -/
def lowest (illegal priv shape : Bool) (addr : Option (Nat × Word)) : Option (Nat × Option Word) :=
  let a := addr.map fun e => (e.1, some e.2)
  if illegal then some (exILLEGAL, none)
  else match a with
    | some (2, x) => some (exPRIV, x)
    | _ =>
      if priv then some (exPRIV, none)
      else match a with
        | some e => some e
        | none => if shape then some (exSHAPE, none) else none

/-- Words of the drawer with errors in the rows of a tile. -/
def rowsEcc (v : Bench) (rows : List Nat) (len : Nat) : List (Nat × Ecc) :=
  if v.ecc.isEmpty then [] else rows.flatMap fun a => v.eccIn siteDrawer a len

/-- Rows of a tile as the Jig core reads them from the drawer (R305). -/
def State.jreadRows (s : State) (b : Nat) (rows : List Nat) (len : Nat) : State × List (List Byte) :=
  if (s.bench b).unseen.isEmpty then (s, rows.map fun a => (s.bench b).drawer.getBytes a len)
  else rows.foldl (fun (acc : State × List (List Byte)) a =>
    let (s, d) := acc.1.jread b a len
    (s, acc.2 ++ [d])) (s, [])

/-! ### SHAPE, BLD and BST -/

/-- SHAPE (R160, R191). -/
def execShape (b : Bench7) (bd : Board4) (rows rbytes : BitVec 6) (ew : BitVec 2) (s : State) : Out :=
  .next (issue b .plain always [] (fun s =>
    let v := s.bench b.toNat
    let n := bd.toNat
    match lowest false (boardPriv v n) (n64 rbytes % ewBytes ew != 0) none with
    | some e => .exc e.1 e.2
    | none => .ok (s.modBench b.toNat fun v =>
      v.setBoard n { v.board n with rows := n64 rows, rbytes := n64 rbytes, ew, owner := some v.curN })) s)

/-- BLD (R161, R162, R205): load a board from the drawer, or its transpose. -/
def execBld (b : Bench7) (bd : Board4) (t : Bool) (ra rb : Reg) (s : State) : Out :=
  .next (issue b .plain (specWaits b t (.board bd.toNat)) [ra, rb] (fun s =>
    let k := b.toNat
    let v := s.bench k
    let n := bd.toNat
    let d := v.boardV n
    let ga := v.cc.reg ra
    let gb := v.cc.reg rb
    let eb := ewBytes d.ew
    let shape := t && (d.ew = 3 || decide (64 < d.rows * eb))
    let len := if t then d.rows * eb else d.rbytes
    let rows := rowAddrs ga gb (if t then d.perRow else d.rows)
    match lowest false (boardPriv v n) shape (if shape then none else tileAddr v.cc.mode ga gb eb rows len) with
    | some e => .exc e.1 e.2
    | none =>
      if rows.any fun a => s.wipeHolds a len then .hold else
      let l := rowsEcc v rows len
      let s := s.eccReports k l
      if eccBad l then .fail s else
        let (s, src) := s.jreadRows k rows len
        if t then
          let w := ewBits d.ew
          let read := src.map (elemsOf w)
          let out := corrupt v.badTranspose w (transposeL d.rows read).flatten
          if sumsPass v.badTranspose read.flatten out then
            .ok (s.putBoard k n (d.putElemRows (chunks d.perRow out)) (v.op (.unit .transpose) [] (d.rows * d.rbytes)))
          else .sum (s.permEnergy k (d.rows * d.rbytes))
        else .ok (s.putBoard k n (d.putRows src) (v.op (.unit .portA) [] 0))) s)

/-- BST (R161, R206): store a board, or its transpose; a later row prevails where rows overlap. -/
def execBst (b : Bench7) (bs : Board4) (t : Bool) (ra rb : Reg) (s : State) : Out :=
  .next (issue b .plain always [ra, rb] (fun s =>
    let k := b.toNat
    let v := s.bench k
    let n := bs.toNat
    let d := v.boardV n
    let ga := v.cc.reg ra
    let gb := v.cc.reg rb
    let eb := ewBytes d.ew
    let shape := t && (d.ew = 3 || decide (64 < d.rows * eb))
    let len := if t then d.rows * eb else d.rbytes
    let rows := rowAddrs ga gb (if t then d.perRow else d.rows)
    match lowest (unowned v n) (boardPriv v n) shape (if shape then none else tileAddr v.cc.mode ga gb eb rows len) with
    | some e => .exc e.1 e.2
    | none =>
      if rows.any fun a => s.wipeHolds a len then .hold else
      let l := boardEcc v n
      let s := s.eccReports k l
      if eccBad l then .fail s else
        if t then
          let w := ewBits d.ew
          let out := corrupt v.badTranspose w (transposeL d.perRow d.elemRows).flatten
          if sumsPass v.badTranspose d.elems out then
            .ok (s.putDrawer k (rows.zip ((chunks d.rows out).map (bytesOf w))) (v.op (.unit .transpose) [.board n] (d.rows * d.rbytes)))
          else .sum (s.permEnergy k (d.rows * d.rbytes))
        else .ok (s.putDrawer k (rows.zip (d.parts.map (·.2))) (v.op (.unit .portA) [.board n] 0))) s)

/-! ### The glue-up -/

/-- Lane `e` of glue-up row `r`. -/
def Glue.lane (g : Glue) (r e : Nat) : Nat := leNat (g.data.getBytes (256 * r + 4 * e) 4)
/-- The glue-up with a lane written. -/
def Glue.setLane (g : Glue) (r e x : Nat) : Glue := { g with data := g.data.setBytes (256 * r + 4 * e) (leBytes 4 x) }
/-- Add a row of elements into a glue-up row (R166, R199). -/
def Glue.addRow (g : Glue) (ty : AccTy) (r : Nat) (es : List Nat) : Glue :=
  (es.zipIdx).foldl (fun g xe => g.setLane r xe.2 (laneAdd ty.isFloat (g.lane r xe.2) (ty.widen xe.1))) g
/-- Words with errors in glue-up rows (R221). -/
def glueEcc (v : Bench) (rows : List Nat) : List (Nat × Ecc) := rows.flatMap fun r => v.eccIn siteBoards (65536 + 256 * r) 256

/-- ACCZ (R164, R198): zero the glue-up, fix its class, take it. -/
def execAccz (b : Bench7) (ty : BitVec 3) (s : State) : Out :=
  .next (issue b .plain always [] (fun s =>
    let v := s.bench b.toNat
    match lowest (glueTy ty).isNone (gluePriv v) false none, glueTy ty with
    | some e, _ => .exc e.1 e.2
    | none, none => .hold
    | none, some t => .ok (s.modBench b.toNat fun v =>
      { v.modCtx v.curN (·.setGlu true) with
        glue := { cls := some t.isFloat, secure := v.cc.mode = mSecure }
        ecc := dropEcc v.ecc siteBoards 65536 81920 })) s)

/-- The exceptions that ACC and ACCI share, and the type (R164, R165, R193, R196). -/
def accCause (v : Bench) (bs : Nat) (ty : BitVec 3) (others : List Nat) (shape : Bool) : Option (Nat × Option Word) :=
  let t := glueTy ty
  let d := v.boardV bs
  let bad := match t with
    | none => true
    | some t => decide (v.glue.cls ≠ some t.isFloat) || decide (d.ew = 3) || decide (t.bytes ≠ ewBytes d.ew)
  lowest (t.isNone || !v.cc.glu || (bs :: others).any (unowned v))
    ((bs :: others).any (boardPriv v) || gluePriv v) (bad || shape) none

/-- ACC (R166): add the rows of a board into glue-up rows. -/
def execAcc (b : Bench7) (bs : Board4) (ty : BitVec 3) (row0 : BitVec 6) (s : State) : Out :=
  .next (issue b .plain always [] (fun s =>
    let k := b.toNat
    let v := s.bench k
    let d := v.boardV bs.toNat
    match accCause v bs.toNat ty [] (decide (64 < row0.toNat + d.rows)), glueTy ty with
    | some e, _ => .exc e.1 e.2
    | none, none => .hold
    | none, some t =>
      let rows := (List.range d.rows).map (row0.toNat + ·)
      let l := boardEcc v bs.toNat ++ glueEcc v rows
      let s := s.eccReports k l
      if eccBad l then .fail s else
        let g := (d.elemRows.zip rows).foldl (fun g rk => g.addRow t rk.2 rk.1) v.glue
        .ok (s.putGlue k g rows (v.op (.unit .portA) [.board bs.toNat] 0))) s)

/-- ACCI (R167): add the rows of a board into indexed glue-up rows, in ascending row. -/
def execAcci (b : Bench7) (bs bi : Board4) (ty : BitVec 3) (s : State) : Out :=
  .next (issue b .plain always [] (fun s =>
    let k := b.toNat
    let v := s.bench k
    let d := v.boardV bs.toNat
    let i := v.boardV bi.toNat
    let shape := (i.ew != 0 && i.ew != 1) || decide (i.count < d.rows)
    match accCause v bs.toNat ty [bi.toNat] shape, glueTy ty with
    | some e, _ => .exc e.1 e.2
    | none, none => .hold
    | none, some t =>
      let idx := i.elems.take d.rows
      let rows := idx.map (min · 63)
      let l := boardEcc v bs.toNat ++ boardEccTo v bi.toNat d.rows ++ glueEcc v rows.eraseDups
      let s := s.eccReports k l
      if eccBad l then .fail s else
        let g := (d.elemRows.zip rows).foldl (fun g rk => g.addRow t rk.2 rk.1) v.glue
        let excess := (idx.filter fun x => decide (64 ≤ x)).length
        .ok (s.putGlue k g rows { v.op (.unit .portA) [.board bs.toNat, .board bi.toNat] 0 with oob := excess })) s)

/-- RELEASE gu (R164, R197). -/
def execReleaseGu (b : Bench7) (s : State) : Out :=
  .next (issue b .plain always [] (fun s =>
    let v := s.bench b.toNat
    if gluePriv v then .exc exPRIV none
    else if v.cc.glu then .ok ((s.releaseGlue b.toNat).modCc b.toNat (·.setGlu false))
    else .ok s) s)

/-- RELEASE bs (R164, R194, R197). -/
def execReleaseBs (b : Bench7) (bs : Board4) (s : State) : Out :=
  .next (issue b .plain always [] (fun s =>
    let v := s.bench b.toNat
    if boardPriv v bs.toNat || gluePriv v then .exc exPRIV none
    else if unowned v bs.toNat then .ok s
    else .ok (s.releaseBoard b.toNat bs.toNat)) s)

/-- DRAIN (R168, R208): write glue-up rows to the drawer, converted, or transposed. -/
def execDrain (b : Bench7) (fmt : BitVec 2) (t : Bool) (ra rb : Reg) (row0 nrows : BitVec 6) (s : State) : Out :=
  .next (issue b .plain always [ra, rb] (fun s =>
    let k := b.toNat
    let v := s.bench k
    let ga := v.cc.reg ra
    let gb := v.cc.reg rb
    let n := n64 nrows
    let eb := if fmt = 0 then 4 else 2
    let cls := match v.glue.cls with
      | none => true
      | some f => ((fmt = 1 || fmt = 2) && !f) || (fmt = 3 && f)
    let len := (if t then n else 64) * eb
    let rows := rowAddrs ga gb (if t then 64 else n)
    match lowest (!v.cc.glu) (gluePriv v) (cls || decide (64 < row0.toNat + n)) (tileAddr v.cc.mode ga gb eb rows len) with
    | some e => .exc e.1 e.2
    | none =>
      if rows.any fun a => s.wipeHolds a len then .hold else
      let l := glueEcc v ((List.range n).map (row0.toNat + ·))
      let s := s.eccReports k l
      if eccBad l then .fail s else
        let lanes := (List.range n).map fun r => (List.range 64).map fun e => drainEl fmt (v.glue.lane (row0.toNat + r) e)
        if t then
          let out := corrupt v.badTranspose (8 * eb) (transposeL 64 lanes).flatten
          if sumsPass v.badTranspose lanes.flatten out then
            .ok (s.putDrawer k (rows.zip ((chunks n out).map (bytesOf (8 * eb)))) (v.op (.unit .transpose) [] (n * 64 * eb)))
          else .sum (s.permEnergy k (n * 64 * eb))
        else .ok (s.putDrawer k (rows.zip (lanes.map (bytesOf (8 * eb)))) (v.op (.unit .portA) [] 0))) s)

end Sys2Proof.Machine
end

