-- ==== Sys2Proof/Machine/Marquetry.lean ====
section
/-! DEFINITION. The Marquetry group (R169 to R177, R224 to R250): PERM, TRN, BTRN, the Kerf solves, and
the saving and restoring of pattern slots. What a younger instruction reads of a result is fixed when the operation issues; the
operation is in flight until it has completed and every older one has committed (R143). -/

namespace Sys2Proof.Machine

/-- A slot that PERM and PSV may not name outside secure mode (R234). -/
def slotPriv (v : Bench) (p : Nat) : Bool := (v.slotV p).secure && v.cc.mode != mSecure

/-- Words with errors in the settings of a slot, in the buffer that holds the newest ones (R211, R248). -/
def slotEcc (v : Bench) (p : Nat) : List (Nat × Ecc) :=
  match v.bufOf (.slot p) with
  | some k => v.eccIn siteBoards (bufBase k) 240
  | none => v.eccIn siteSlots (256 * p) 240

/-- The settings that a PERM of slot `p` uses, and their words with errors: the applied-pattern register when the slot is the one
last applied (R175, R248), else the slot or the buffer. -/
def permSettings (v : Bench) (p : Nat) : Slot × List (Nat × Ecc) :=
  if v.applied.slot = some p && (v.bufOf (.slot p)).isNone && v.flight.all (·.started) then
    ({ img := v.applied.img, secure := v.applied.secure }, v.eccIn siteSlots 4096 240)
  else (v.slotV p, slotEcc v p)

/-- PERM (R172): apply a pattern to each group of 256 elements. -/
def execPerm (b : Bench7) (bd bs : Board4) (p : BitVec 4) (s : State) : Out :=
  .next (issue b .plain (specWaits b true (.board bd.toNat)) [] (fun s =>
    let k := b.toNat
    let v := s.bench k
    let d := v.boardV bd.toNat
    let src := v.boardV bs.toNat
    match lowest (unowned v bs.toNat) (boardPriv v bd.toNat || boardPriv v bs.toNat || slotPriv v p.toNat)
        (!d.sameShape src || src.count % 256 != 0) none with
    | some e => .exc e.1 e.2
    | none =>
      let l := boardEcc v bs.toNat
      let (sl, l') := permSettings v p.toNat
      let s := (s.eccReports k l).eccReports k l'
      if eccBad l || eccBad l' then .fail s else
        let out := corrupt v.badFabric (ewBits src.ew) ((chunks 256 src.elems).map (routeLanes (sl.img.getBytes 0 240))).flatten
        let bytes := src.rows * src.rbytes
        if sumsPass v.badFabric src.elems out then
          .ok (s.putBoard k bd.toNat (d.putElemRows (chunks src.perRow out))
            { v.op (.unit .fabric) [.board bs.toNat, .slot p.toNat] bytes with
              applied := some
                { slot := if (v.bufOf (.slot p.toNat)).isSome then none else some p.toNat, img := sl.img, secure := sl.secure } })
        else .sum (s.permEnergy k bytes)) s)

/-- TRN (R173): the transpose of a board. -/
def execTrn (b : Bench7) (bd bs : Board4) (s : State) : Out :=
  .next (issue b .plain (specWaits b true (.board bd.toNat)) [] (fun s =>
    let k := b.toNat
    let v := s.bench k
    let d := v.boardV bd.toNat
    let src := v.boardV bs.toNat
    let shape := src.ew = 3 || d.ew != src.ew || d.rows != src.perRow || d.rbytes != src.rows * ewBytes src.ew
    match lowest (unowned v bs.toNat) (boardPriv v bd.toNat || boardPriv v bs.toNat) shape none with
    | some e => .exc e.1 e.2
    | none =>
      let l := boardEcc v bs.toNat
      let s := s.eccReports k l
      if eccBad l then .fail s else
        let out := corrupt v.badTranspose (ewBits src.ew) (transposeL src.perRow src.elemRows).flatten
        let bytes := src.rows * src.rbytes
        if sumsPass v.badTranspose src.elems out then
          .ok (s.putBoard k bd.toNat (d.putElemRows (chunks d.perRow out)) (v.op (.unit .transpose) [.board bs.toNat] bytes))
        else .sum (s.permEnergy k bytes)) s)

/-- BTRN (R173): bit transposes of 8 by 8 blocks; its checksum is taken over the bits (R236). -/
def execBtrn (b : Bench7) (bd bs : Board4) (s : State) : Out :=
  .next (issue b .plain (specWaits b true (.board bd.toNat)) [] (fun s =>
    let k := b.toNat
    let v := s.bench k
    let d := v.boardV bd.toNat
    let src := v.boardV bs.toNat
    match lowest (unowned v bs.toNat) (boardPriv v bd.toNat || boardPriv v bs.toNat)
        (src.rows % 8 != 0 || !d.sameShape src) none with
    | some e => .exc e.1 e.2
    | none =>
      let l := boardEcc v bs.toNat
      let s := s.eccReports k l
      if eccBad l then .fail s else
        let rows := (List.range src.rows).map fun r => elemsOf 8 (src.data.getBytes (64 * r) src.rbytes)
        let out := corrupt v.badTranspose 8 ((chunks 8 rows).map btrn8).flatten.flatten
        let bits (l : List Nat) : List Nat := l.flatMap fun x => (List.range 8).map fun i => bitN x i
        let bytes := src.rows * src.rbytes
        if sumsPass v.badTranspose (bits rows.flatten) (bits out) then
          .ok (s.putBoard k bd.toNat (d.putRows ((chunks src.rbytes out).map (bytesOf 8)))
            (v.op (.unit .transpose) [.board bs.toNat] bytes))
        else .sum (s.permEnergy k bytes)) s)

/-! ### The Kerf solves -/

/-- The settings that the solver puts out for a permutation (R229): a fault inverts some (R248). -/
def solverImage (bad : List Nat) (src : List Nat) : List Byte :=
  bad.foldl (fun img k => img.modify (k / 8) fun x => x ^^^ BitVec.ofNat 8 (2 ^ (k % 8))) ((solveImage src).take 240)

/-- Each value comes before the next one in the order asked for, equal ones in ascending lane (R237). -/
def inOrder (desc : Bool) (key : Nat → Int) (r : List Nat) : Bool :=
  (r.zip r.tail).all fun p =>
    (if desc then decide (key p.2 < key p.1) else decide (key p.1 < key p.2)) || (key p.1 == key p.2 && decide (p.1 < p.2))

/-- The test of KSR on the routed lane numbers (R237). -/
def ksrTest (w : Nat) (kt : BitVec 2) (dir : Bool) (keys r : List Nat) : Bool :=
  inOrder dir (fun i => keyVal w kt (nth0 keys i)) r

/-- The test of KTK on the routed lane numbers (R237): the selected lanes in order, the others in ascending lane, and none of
them would be selected before the last selected one. -/
def ktkTest (w : Nat) (kt : BitVec 2) (dir : Bool) (k : Nat) (keys r : List Nat) : Bool :=
  let key (i : Nat) : Int := keyVal w kt (nth0 keys i)
  let last := nth0 r (k - 1)
  inOrder (!dir) key (r.take k) && ((r.drop k).zip (r.drop k).tail).all (fun p => decide (p.1 < p.2)) &&
    (r.drop k).all fun i => !inOrder (!dir) key [i, last]

/-- Finish a solve: its settings are checked before the slot is written (R237), clamped indices count when it commits (R246).
The tests prove the result of a solve, so a solver without a fault passes them. -/
def solveDone (s : State) (b p : Nat) (bs : Nat) (src : List Nat) (test : List Nat → Bool) (excess bytes : Nat) : Res :=
  let v := s.bench b
  let img := solverImage v.badSolver src
  if v.badSolver.isEmpty || test (routeLanes img (List.range 256)) then
    .ok (s.putSlot b p img { v.op (.unit .solver) [.board bs] bytes with oob := excess })
  else .sum (s.permEnergy b bytes)

/-- KSI (R170): solve a pattern from an index vector. -/
def execKsi (b : Bench7) (p : BitVec 4) (bs : Board4) (s : State) : Out :=
  .next (issue b .plain (specWaits b true (.slot p.toNat)) [] (fun s =>
    let k := b.toNat
    let v := s.bench k
    let d := v.boardV bs.toNat
    match lowest (unowned v bs.toNat) (boardPriv v bs.toNat) (decide (d.count < 256) || (d.ew != 0 && d.ew != 1)) none with
    | some e => .exc e.1 e.2
    | none =>
      let l := boardEccTo v bs.toNat 256
      let s := s.eccReports k l
      if eccBad l then .fail s else
        let idx := d.elems.take 256
        let full := ksiComplete (ksiClamp idx)
        solveDone s k p.toNat bs.toNat full (· == full) (idx.filter fun i => decide (256 ≤ i)).length (256 * ewBytes d.ew)) s)

/-- A solve from keys (R171). -/
def keySolve (b : Bench7) (p : BitVec 4) (bs : Board4) (kt : BitVec 2) (src : Nat → List Nat → List Nat)
    (test : Nat → List Nat → List Nat → Bool) (s : State) : State :=
  issue b .plain (specWaits b true (.slot p.toNat)) [] (fun s =>
    let k := b.toNat
    let v := s.bench k
    let d := v.boardV bs.toNat
    match lowest (decide (kt = 3) || unowned v bs.toNat) (boardPriv v bs.toNat)
        (decide (d.count < 256) || decide (d.ew = 3)) none with
    | some e => .exc e.1 e.2
    | none =>
      let l := boardEccTo v bs.toNat 256
      let s := s.eccReports k l
      if eccBad l then .fail s else
        let keys := d.elems.take 256
        solveDone s k p.toNat bs.toNat (src (ewBits d.ew) keys) (test (ewBits d.ew) keys) 0 (256 * ewBytes d.ew)) s

/-- KSR (R171): solve the rank pattern of 256 keys. -/
def execKsr (b : Bench7) (p : BitVec 4) (bs : Board4) (kt : BitVec 2) (dir : Bool) (s : State) : Out :=
  .next (keySolve b p bs kt (fun w keys => ksrSrc w kt dir keys) (fun w keys => ksrTest w kt dir keys) s)

/-- K of KTK: 0 means 256 (R171). -/
def ktkK (k : BitVec 8) : Nat := if k = 0 then 256 else k.toNat

/-- KTK (R171): solve the top-k pattern of 256 keys. -/
def execKtk (b : Bench7) (p : BitVec 4) (bs : Board4) (kt : BitVec 2) (dir : Bool) (k : BitVec 8) (s : State) : Out :=
  .next (keySolve b p bs kt (fun w keys => ktkSrc w kt dir (ktkK k) keys) (fun w keys => ktkTest w kt dir (ktkK k) keys) s)

/-- PSV (R174): save the image of a slot. -/
def execPsv (b : Bench7) (ra : Reg) (p : BitVec 4) (s : State) : Out :=
  .next (issue b .plain always [ra] (fun s =>
    let k := b.toNat
    let v := s.bench k
    let ga := v.cc.reg ra
    match lowest false (slotPriv v p.toNat) false (tileAddr v.cc.mode ga 0 64 [ga.toNat] 256) with
    | some e => .exc e.1 e.2
    | none =>
      if s.wipeHolds ga.toNat 256 then .hold else
      let l := slotEcc v p.toNat
      let s := s.eccReports k l
      if eccBad l then .fail s else
        let img := (v.slotV p.toNat).img.getBytes 0 240 ++ List.replicate 16 0
        .ok (s.putDrawer k [(ga.toNat, img)] (v.op (.unit .solver) [.slot p.toNat] 0))) s)

/-- PRS (R174): restore a slot; bytes 240 to 255 of the image are ignored. -/
def execPrs (b : Bench7) (p : BitVec 4) (ra : Reg) (s : State) : Out :=
  .next (issue b .plain (specWaits b true (.slot p.toNat)) [ra] (fun s =>
    let k := b.toNat
    let v := s.bench k
    let ga := v.cc.reg ra
    match tileAddr v.cc.mode ga 0 64 [ga.toNat] 256 with
    | some e => .exc e.1 (some e.2)
    | none =>
      if s.wipeHolds ga.toNat 256 then .hold else
      let l := v.eccIn siteDrawer ga.toNat 256
      let s := s.eccReports k l
      if eccBad l then .fail s else
        let (s, img) := s.jread k ga.toNat 240
        .ok (s.putSlot k p.toNat img (v.op (.unit .solver) [] 0))) s)

end Sys2Proof.Machine
end

