-- ==== Sys2Proof/Machine/Tensor.lean ====
section
/-! DEFINITION. Tensor descriptors: their fields (R259), the checks of R271, the place of every element
(R253, R254, R257, R265, R269), and the conversions of R274 and R275. -/

namespace Sys2Proof.Machine

/-! ### Element types (R251, R252) -/

/-- The planes of a bit-plane type, or 0 for a byte-packed one. -/
def tyPlanes (t : Nat) : Nat :=
  if t = 0x10 ∨ t = 0x11 then 6 else if t = 0x12 then 4 else if t = 0x18 then 1 else if t = 0x19 then 2
  else if 0x21 ≤ t ∧ t ≤ 0x27 then t - 0x20 else if 0x32 ≤ t ∧ t ≤ 0x37 then t - 0x30 else 0
/-- EB of a byte-packed type, or 0. -/
def tyBytes (t : Nat) : Nat :=
  if [0x00, 0x08, 0x09, 0x0A, 0x0B, 0x0C].contains t then 1 else if [0x01, 0x04, 0x05].contains t then 2
  else if t = 0x02 ∨ t = 0x06 then 4 else 0
/-- A TYPE of R251. -/
def tyOk (t : Nat) : Bool := tyPlanes t != 0 || tyBytes t != 0
/-- A microscaling type (R253). -/
def tyMx (t : Nat) : Bool := [0x0A, 0x0B, 0x0C, 0x10, 0x11, 0x12].contains t
/-- A floating-point type that is not an MX type, with its format. -/
def tyFloat (t : Nat) : Option FFmt :=
  if t = 4 then some fp16 else if t = 5 then some bf16 else if t = 6 then some fp32
  else if t = 8 then some e4m3 else if t = 9 then some e5m2 else none
/-- The element format of a floating-point MX type. -/
def tyMxFmt (t : Nat) : Option FFmt :=
  if t = 0x0A then some e4m3 else if t = 0x0B then some e5m2 else if t = 0x10 then some e2m3
  else if t = 0x11 then some e3m2 else if t = 0x12 then some e2m1 else none
/-- An integer source of R274. -/
def tyInt (t : Nat) : Bool := tyOk t && !tyMx t && (tyFloat t).isNone
/-- Bits of an element as stored in one run: 1 in a plane, the width of a byte-packed element otherwise. -/
def tyUnit (t : Nat) : Nat := if tyPlanes t = 0 then 8 * tyBytes t else 1
/-- Bits of an element's code. -/
def tyBits (t : Nat) : Nat := if tyPlanes t = 0 then 8 * tyBytes t else tyPlanes t

/-- The accumulation type of a TYPE that SCATTER_ADD takes (R297 step 5). -/
def tyAdd (t : Nat) : Option AccTy :=
  if t = 0 then some .int8 else if t = 1 then some .int16 else if t = 2 then some .int32
  else if t = 4 then some .fp16 else if t = 5 then some .bf16 else if t = 6 then some .fp32 else none

/-! ### The descriptor (R259, R264, R267) -/

/-- Field of `len` bytes at `off`, bits `hi` to `lo`. -/
def bfld (d : List Byte) (off len hi lo : Nat) : Nat := fld (leNat ((d.drop off).take len)) hi lo

/-- A tensor descriptor as its bytes; an owner table's entries follow byte 127. -/
structure TDesc where
  d : List Byte
  deriving DecidableEq, Repr

namespace TDesc
variable (t : TDesc)
/-- BASE. -/
def base : Nat := bfld t.d 0 8 51 0
/-- RLO. -/
def rlo : Nat := bfld t.d 8 8 51 0
/-- RLEN. -/
def rlen : Nat := bfld t.d 0x10 8 52 0
/-- TYPE. -/
def ty : Nat := bfld t.d 0x18 4 5 0
/-- SPACE 1: a drawer. -/
def inDrawer : Bool := bfld t.d 0x18 4 6 6 = 1
/-- DIST. -/
def dist : Nat := bfld t.d 0x18 4 9 8
/-- LAYOUT. -/
def layout : Nat := bfld t.d 0x18 4 11 10
/-- RANK. -/
def rank : Nat := bfld t.d 0x18 4 14 12
/-- PORDER. -/
def porder : Bool := bfld t.d 0x18 4 15 15 = 1
/-- PLANE_HI. -/
def phi : Nat := bfld t.d 0x18 4 18 16
/-- PLANE_LO. -/
def plo : Nat := bfld t.d 0x18 4 21 19
/-- BENCH. -/
def bench : Nat := bfld t.d 0x18 4 30 24
/-- PR as encoded. -/
def prCode : Nat := bfld t.d 0x1C 4 7 0
/-- PC as encoded. -/
def pcCode : Nat := bfld t.d 0x1C 4 15 8
/-- PART. -/
def part : Nat := bfld t.d 0x1C 4 18 16
/-- SEALED. -/
def sealed_ : Bool := bfld t.d 0x1C 4 31 31 = 1
/-- SIZEk as written. -/
def sizeF (k : Nat) : Nat := bfld t.d (0x20 + 4 * k) 4 31 0
/-- SIZEk; a dimension beyond RANK counts as 1 (R298). -/
def size (k : Nat) : Nat := if k < t.rank then t.sizeF k else 1
/-- SCALE_OFF. -/
def scaleOff : Nat := bfld t.d 0x34 4 31 0
/-- STRIDEk. -/
def stride (k : Nat) : Int := sval 64 (bfld t.d (0x38 + 8 * k) 8 63 0)
/-- PSTRIDE. -/
def pstride : Nat := bfld t.d 0x60 8 63 0
/-- SEAL. -/
def sealF : Nat := bfld t.d 0x7C 4 31 0
/-- AXISk. -/
def axis (k : Nat) : Nat := bfld t.d 0x68 8 (12 * k + 2) (12 * k)
/-- MODEk. -/
def mode (k : Nat) : Nat := bfld t.d 0x68 8 (12 * k + 4) (12 * k + 3)
/-- BLKLOGk. -/
def blklog (k : Nat) : Nat := bfld t.d 0x68 8 (12 * k + 9) (12 * k + 5)
/-- Na. -/
def shards (a : Nat) : Nat := bfld t.d (0x70 + a) 1 3 0
/-- ORGa. -/
def org (a : Nat) : Nat := bfld t.d (0x70 + a) 1 6 4
/-- OT_ADDR. -/
def otAddr : Nat := bfld t.d 0x68 8 51 0
/-- OT_COUNT. -/
def otCount : Nat := bfld t.d 0x70 4 12 0
/-- DBLOG. -/
def dblog : Nat := bfld t.d 0x70 4 20 16
/-- PR (R256). -/
def pr : Nat := if t.layout = 2 then (if t.prCode = 0 then 256 else t.prCode) else 1
/-- PC (R256). -/
def pc : Nat := if t.layout = 2 then (if t.pcCode = 0 then 256 else t.pcCode) else 1
/-- Bits of one element in a run. -/
def ew : Nat := tyUnit t.ty
/-- BC (R256). -/
def bc : Nat := if tyPlanes t.ty = 0 then 8 / tyBytes t.ty else 64
/-- Bits that one unit of a stride counts (R257). -/
def sc : Nat := if tyPlanes t.ty = 0 then 8 else 1
/-- The dimensions, 0 to 4. -/
def dims : List Nat := [0, 1, 2, 3, 4]
/-- The types of one side of a stream. -/
def sel : TySel := { ty := t.ty, hi := t.phi, lo := t.plo, pstride := t.pstride }

/-! #### Sharding (R265) -/

/-- Whether dimension `k` is sharded. -/
def sharded (k : Nat) : Bool := t.dist = 1 && t.axis k != 0
/-- N of the axis that dimension `k` names. -/
def nOf (k : Nat) : Nat := t.shards (t.axis k - 1)
/-- The shard and the local index of index `i` along dimension `k` (R265). -/
def shardOf (k i : Nat) : Nat × Nat :=
  if t.sharded k then
    let n := max 1 (t.nOf k)
    if t.mode k = 0 then let b := max 1 (ceilDiv (t.size k) n); (i / b, i % b)
    else if t.mode k = 1 then (i % n, i / n)
    else let b := 2 ^ t.blklog k; (i / b % n, i / (b * n) * b + i % b)
  else (0, i)
/-- The local SIZE along dimension `k` (R265). -/
def localSize (k : Nat) : Nat :=
  if t.sharded k then
    let n := max 1 (t.nOf k)
    if t.mode k = 2 then let b := 2 ^ t.blklog k; ceilDiv (t.size k) (b * n) * b else ceilDiv (t.size k) n
  else t.size k
/-- The number of elements. -/
def count : Nat := (dims.map t.size).prod
/-- The number of distribution blocks of an owner table (R267). -/
def blocks : Nat := ceilDiv t.count (2 ^ t.dblog)

/-! #### Addresses (R257) -/

/-- The bits that index `i` of dimension 0 adds to an address (R257). -/
def part0 (i : Nat) : Int :=
  if t.layout = 0 then t.sc * t.stride 0 * i
  else
    let c := i / t.bc
    t.sc * t.stride 0 * (c / t.pc) + 512 * (c % t.pc * (if t.porder then t.pr else 1)) + i % t.bc * t.ew
/-- The bits that index `i` of dimension 1 adds to an address (R257). -/
def part1 (i : Nat) : Int :=
  if t.layout = 0 then t.sc * t.stride 1 * i
  else
    let r := i / 8
    t.sc * t.stride 1 * (r / t.pr) + 512 * (r % t.pr * (if t.porder then 1 else t.pc)) + 64 * (i % 8)
/-- The bit address in plane 0 of a local index (R257). -/
def bitAddr (idx : List Nat) : Int :=
  8 * t.base + t.part0 (nth0 idx 0) + t.part1 (nth0 idx 1) +
    t.sc * (t.stride 2 * nth0 idx 2 + t.stride 3 * nth0 idx 3 + t.stride 4 * nth0 idx 4)

/-- The number of an element in row-major order, dimension 0 fastest, for given sizes. -/
def flat (sizes idx : List Nat) : Nat :=
  (List.zip sizes idx).foldr (fun (e : Nat × Nat) acc => e.2 + e.1 * acc) 0

/-! #### Owner tables (R267 to R269) -/

/-- Entry `e` of the owner table, as a number. -/
def entry (e : Nat) : Nat := bfld t.d (128 + 8 * e) 8 63 0
/-- VALID of an entry. -/
def eValid (e : Nat) : Bool := bitN (t.entry e) 63 = 1
/-- PRIO of an entry. -/
def ePrio (e : Nat) : Nat := fld (t.entry e) 62 61
/-- DEVICE of an entry. -/
def eDev (e : Nat) : Nat := fld (t.entry e) 60 49
/-- LSLOT of an entry. -/
def eSlot (e : Nat) : Nat := fld (t.entry e) 48 29
/-- COUNT of an entry. -/
def eCount (e : Nat) : Nat := if fld (t.entry e) 28 21 = 0 then 256 else fld (t.entry e) 28 21
/-- FIRST of an entry. -/
def eFirst (e : Nat) : Nat := fld (t.entry e) 19 0
/-- The valid entries that match a block, ascending. -/
def matching (i : Nat) : List Nat :=
  (List.range t.otCount).filter fun e => t.eValid e && decide (t.eFirst e ≤ i) && decide (i < t.eFirst e + t.eCount e)
/-- The entries of highest PRIO among those that match a block (R268). -/
def winners (i : Nat) : List Nat :=
  let m := t.matching i
  let top := (m.map t.ePrio).foldl max 0
  m.filter fun e => t.ePrio e = top
/-- The pairs of entries of equal highest PRIO that match one block: the acting entry and another, each pair once (R268). -/
def multiHits : List (Nat × Nat) :=
  ((List.range t.blocks).flatMap fun i =>
    match t.winners i with | a :: rest => rest.map fun b => (a, b) | [] => []).eraseDups

/-- Where an element lies: its device, the bit address in plane 0, and its scale's byte address (R253, R257, R265, R269). -/
def locate (me : Nat) (idx : List Nat) : Nat × Nat × Nat :=
  if t.dist = 2 then
    let j := flat (dims.map t.size) idx
    let i := j / 2 ^ t.dblog
    let e := (t.winners i).headD 0
    let pos := (t.eSlot e + i - t.eFirst e) * 2 ^ t.dblog + j % 2 ^ t.dblog
    (t.eDev e, 8 * t.base + pos * t.ew, t.base + t.scaleOff + pos / 32)
  else
    let l := dims.map fun k => (t.shardOf k (nth0 idx k)).2
    let dev := if t.dist = 1 then
        ((List.range 4).map fun a =>
          let c := match dims.find? fun k => t.sharded k && t.axis k = a + 1 with
            | some k => t.org a + (t.shardOf k (nth0 idx k)).1
            | none => coord me a
          c * 8 ^ a).sum
      else me
    let ls := dims.map t.localSize
    (dev, (t.bitAddr l).toNat, t.base + t.scaleOff + flat (ls.headD 0 / 32 :: ls.tail) (nth0 l 0 / 32 :: l.tail))

/-- The place of an element for a transfer of device `me` (R261); a rack endpoint lies relative to `slot` (R297). -/
def place (me : Nat) (slot : Option Place) (idx : List Nat) : ELoc :=
  let (dev, a, sa) := t.locate me idx
  let at_ (byte : Nat) : Place := match slot with
    | some (.drawer b o) => .drawer b (o + byte)
    | some _ => .dslot byte
    | none =>
      if t.inDrawer then (if dev = me then .drawer t.bench byte else .remote dev t.bench byte)
      else (if dev = me then .host byte else .remoteHost dev byte)
  { at_ := { place := at_ (a / 8), bit := a % 8 }, scale := if tyMx t.ty then some (at_ sa) else none }

/-! ### Validation (R271) -/

/-- Steps 1 to 7 of R271: the first error, if any. `mask`: the benches of the partition that are usable. MODEk and BLKLOGk of a
dimension at or beyond RANK may hold any legal value: R264 and R271 ask only AXISk to be 0 there (DESIGN CHOICE, log 112). -/
def check1 (mask : BitVec 128) : Option Nat :=
  let w18 := bfld t.d 0x18 4 31 0
  let beyond := dims.filter fun k => t.rank ≤ k
  let within_ := dims.filter fun k => k < t.rank
  let planes := tyPlanes t.ty
  let rsvDist : Bool :=
    if t.dist = 0 then (List.range 16).any fun i => (t.d.getD (0x68 + i) 0) != 0
    else if t.dist = 1 then
      (dims.any fun k => bfld t.d 0x68 8 (12 * k + 11) (12 * k + 10) != 0) || bfld t.d 0x68 8 63 60 != 0 ||
        ([0, 1, 2, 3].any fun a => bfld t.d (0x70 + a) 1 7 7 != 0) || bfld t.d 0x74 4 31 0 != 0
    else bfld t.d 0x68 8 63 52 != 0 || bfld t.d 0x70 4 15 13 != 0 || bfld t.d 0x70 4 31 21 != 0 || bfld t.d 0x74 4 31 0 != 0
  if bfld t.d 0 8 63 52 ≠ 0 ∨ bfld t.d 8 8 63 52 ≠ 0 ∨ bfld t.d 0x10 8 63 53 ≠ 0 ∨ fld w18 7 7 ≠ 0 ∨ fld w18 23 22 ≠ 0 ∨
      fld w18 31 31 ≠ 0 ∨ bfld t.d 0x1C 4 30 19 ≠ 0 ∨ bfld t.d 0x78 4 31 0 ≠ 0 ∨ rsvDist ∨ t.dist = 3 ∨ t.layout = 3 then some errRANGE
  else if !tyOk t.ty || (if planes = 0 then t.phi != 0 || t.plo != 0 else decide (t.phi < t.plo) || decide (planes ≤ t.phi)) then some errTYPE
  else if t.rank = 0 ∨ 5 < t.rank ∨ (t.layout ≠ 2 ∧ (t.prCode ≠ 0 ∨ t.pcCode ≠ 0)) ∨
      (beyond.any fun k => t.sizeF k != 0 || t.stride k != 0) ∨ (dims.any fun k => decide (2 ^ 52 ≤ (t.stride k).natAbs)) ∨
      t.rlen = 0 ∨ 2 ^ 52 < t.rlo + t.rlen ∨ (!tyMx t.ty && t.scaleOff != 0) ∨ (planes = 0 ∧ t.pstride ≠ 0) ∨ 2 ^ 52 ≤ t.pstride then some errRANGE
  else if t.dist = 1 ∧ ((dims.any fun k =>
        decide (4 < t.axis k) || t.mode k = 3 || (if t.mode k = 2 then decide (24 < t.blklog k) else t.blklog k != 0)) ∨
      (beyond.any fun k => t.axis k != 0) ∨ ([0, 1, 2, 3].any fun a => t.shards a = 0 || decide (8 < t.shards a))) then some errRANGE
  else if t.dist = 2 ∧ (4096 < t.otCount ∨ t.dblog < 6 ∨ 24 < t.dblog ∨ t.layout ≠ 0 ∨ (dims.any fun k => t.stride k != 0)) then some errRANGE
  else if t.inDrawer && !mask.getLsbD t.bench then some errPART
  else if !t.inDrawer && t.bench != 0 then some errRANGE
  else
    let upper : Int := if planes = 0 then tyBytes t.ty else 8
    let row : Int := if planes = 0 then 64 else 512
    let badAlign : Bool :=
      if t.dist = 2 then t.base % 64 != 0 || t.otAddr % 8 != 0
      else if t.layout = 0 then
        (if planes = 0 then t.base % tyBytes t.ty != 0 || t.stride 0 % tyBytes t.ty != 0 else t.base % 64 != 0) ||
          [1, 2, 3, 4].any fun k => t.stride k % upper != 0
      else t.base % 64 != 0 || t.stride 0 % row != 0 || t.stride 1 % row != 0 || [2, 3, 4].any fun k => t.stride k % upper != 0
    if badAlign || (tyMx t.ty && t.scaleOff % 64 != 0) || (planes != 0 && t.pstride % 64 != 0) then some errALIGN
    else if (tyMx t.ty && t.size 0 % 32 != 0) ||
        (t.layout != 0 && (decide (t.rank < 2) || t.size 1 % (8 * t.pr) != 0 || t.size 0 % (t.bc * t.pc) != 0)) ||
        (t.layout = 0 && planes != 0 && t.dist != 2 && t.stride 0 != 1) then some errSHAPE
    else if 2 ^ 48 < ((within_.map t.size).prod) ∨ (t.dist = 2 ∧ 2 ^ 20 < t.blocks) then some errLENGTH
    else none

/-- A drawer range that reaches the secure part (R261). -/
def secureReach : Bool := t.inDrawer && decide (0x1E0000 < t.rlo + t.rlen)

/-- The planes whose footprint bounds that of every covered plane (R255, R262). -/
def endPlanes : List Nat := if tyPlanes t.ty = 0 then [0] else [t.plo, t.phi]

/-- The bytes from `lo` to `hi` lie in the allocated range (R262). -/
def inRange (lo hi : Int) : Bool := decide ((t.rlo : Int) ≤ lo) && decide (hi < (t.rlo + t.rlen : Nat))

/-- The first and the last byte in plane 0 of the slots of entry `e` of an owner table (R269). -/
def slotSpan (e : Nat) : Int × Int :=
  let b := t.eSlot e * 2 ^ t.dblog * t.ew
  let n := t.eCount e * 2 ^ t.dblog * t.ew
  (((t.base + b / 8 : Nat) : Int), ((t.base + (b + n - 1) / 8 : Nat) : Int))

/-- A span of plane 0 lies in the allocated range in every covered plane. -/
def planesIn (e : Int × Int) : Bool := t.endPlanes.all fun j => t.inRange (e.1 + t.pstride * j) (e.2 + t.pstride * j)

/-- Step 8 of R271: the distribution. `sizes`: the sizes of the torus. -/
def check8 (sizes : List Nat) : Option Nat :=
  if t.dist = 1 then
    let named := (dims.filter t.sharded).map fun k => t.axis k - 1
    if named.eraseDups.length ≠ named.length then some errOWNER
    else if named.any fun a => decide (nth0 sizes a < t.org a + t.shards a) then some errOWNER
    else if [0, 1, 2, 3].any fun a => !named.contains a && decide (1 < t.shards a) then some errOWNER
    else none
  else if t.dist = 2 then
    if t.otCount = 0 then some errOWNER else
      let bad := (List.range t.otCount).findSome? fun e =>
        if !t.eValid e then none
        else if bitN (t.entry e) 20 ≠ 0 then some errRANGE
        else if [0, 1, 2, 3].any fun a => decide (nth0 sizes a ≤ coord (t.eDev e) a) then some errOWNER
        else if !t.planesIn (t.slotSpan e) then some errLENGTH
        else if t.blocks < t.eFirst e + t.eCount e then some errRANGE
        else none
      match bad with
      | some e => some e
      | none => if (List.range t.blocks).any fun i => (t.matching i).isEmpty then some errOWNER else none
  else none

/-- The greatest of a mixed-radix contribution over indices below `n`: the candidates of its maximum. -/
def tops (n block panel : Nat) : List Nat :=
  [n - 1, (n - 1) / panel * panel + (n - 1) % panel / block * block - 1, (n - 1) / panel * panel - 1,
    min n panel - 1, (min n panel - 1) / block * block - 1]

/-- The bytes that the elements of local indices cover in plane 0, as first and last byte (R262). -/
def span : Int × Int :=
  let n (k : Nat) := t.localSize k
  let line (k : Nat) : List Int := [0, t.sc * t.stride k * (n k - 1 : Nat)]
  let c0 := if t.layout = 0 then [0, t.part0 (n 0 - 1)] else
    t.part0 0 :: t.part0 ((n 0 - 1) / (t.bc * t.pc) * (t.bc * t.pc)) :: (tops (n 0) t.bc (t.bc * t.pc)).map t.part0
  let c1 := if t.layout = 0 then [0, t.part1 (n 1 - 1)] else
    t.part1 0 :: t.part1 ((n 1 - 1) / (8 * t.pr) * (8 * t.pr)) :: (tops (n 1) 8 (8 * t.pr)).map t.part1
  let all : List (List Int) := [c0, c1, line 2, line 3, line 4]
  let lo : Int := (all.map fun l => l.foldl min (l.headD 0)).sum + 8 * t.base
  let hi : Int := (all.map fun l => l.foldl max (l.headD 0)).sum + 8 * t.base + (t.ew - 1 : Nat)
  (lo.ediv 8, hi.ediv 8)

/-- Step 9 of R271: the footprint (R261, R262). -/
def check9 : Option Nat :=
  if t.secureReach then some errRANGE
  else if t.count = 0 then none
  else
    let elems : List (Int × Int) :=
      if t.dist = 2 then ((List.range t.otCount).filter t.eValid).map t.slotSpan else [t.span]
    let scales : List (Int × Int) :=
      if !tyMx t.ty then [] else
        if t.dist = 2 then ((List.range t.otCount).filter t.eValid).map fun e =>
          (((t.base + t.scaleOff + t.eSlot e * 2 ^ t.dblog / 32 : Nat) : Int),
            ((t.base + t.scaleOff + ((t.eSlot e + t.eCount e) * 2 ^ t.dblog - 1) / 32 : Nat) : Int))
        else
          -- The last scale is that of the last local index (R253, R266).
          let rows := t.localSize 1 * t.localSize 2 * t.localSize 3 * t.localSize 4
          let last := (t.localSize 0 - 1) / 32 + t.localSize 0 / 32 * (rows - 1)
          [(((t.base + t.scaleOff : Nat) : Int), ((t.base + t.scaleOff + last : Nat) : Int))]
    if elems.all t.planesIn && scales.all fun e => t.inRange e.1 e.2
    then none else some errLENGTH

/-- The bytes that SEAL covers: bytes 0x00 to 0x7B, and an owner table's entries (R272). -/
def sealedBytes : List Byte := t.d.take 0x7C ++ (if t.dist = 2 then t.d.drop 128 else [])

/-- The use check of R273: whether the descriptor passes for partition `p`. -/
def useOk (epoch p : Nat) : Bool :=
  t.sealed_ && t.part = p && t.sealF = (Config.sealCode epoch t.sealedBytes p).toNat

end TDesc

/-! ### Conversions (R274, R275) -/

/-- The value of an element that is not of an MX type. -/
def elVal (ty code : Nat) : FVal :=
  match tyFloat ty with
  | some f => f.decode code
  | none =>
    .ofInt (if ty ≤ 2 then sval (tyBits ty) code
      else if ty = 0x18 then (if code % 2 = 1 then 1 else -1)
      else if ty = 0x19 then (if code % 2 = 0 then 0 else if code / 2 % 2 = 1 then -1 else 1)
      else if 0x30 ≤ ty then sval (tyBits ty) code else code)

/-- The value of an element of an MX type under its scale (R253, R274). -/
def mxVal (ty code scale : Nat) : FVal :=
  let v : FVal := match tyMxFmt ty with
    | some f => f.decode code
    | none => (FVal.ofInt (sval 8 code)).scale (-6)
  let neg : Bool := match v with | .nan n => n | .inf n => n | .fin n _ _ => n
  if scale = 0xFF then .nan neg else v.scale (scale - 127 : Int)

/-- The range of an integer type. -/
def intRange (ty : Nat) : Int × Int :=
  let w := tyBits ty
  if 0x21 ≤ ty ∧ ty ≤ 0x27 then (0, 2 ^ w - 1) else (-(2 ^ (w - 1)), 2 ^ (w - 1) - 1)

/-- The code of a value in a type that is not an MX type (R274). -/
def elCode (ty : Nat) (v : FVal) : Nat :=
  match tyFloat ty with
  | some f => f.encode (decide (f.width = 8)) v
  | none =>
    let neg : Bool := match v with | .nan n => n | .inf n => n | .fin n _ _ => n
    let zero : Bool := match v with | .nan _ => true | .inf _ => false | .fin _ m _ => m = 0
    if ty = 0x18 then (match v with | .fin true (_ + 1) _ => 0 | .fin .. => 1 | .inf n => b2n !n | .nan n => b2n !n)
    else if ty = 0x19 then (if zero then 0 else if neg then 3 else 1)
    else
      let r := intRange ty
      uval (tyBits ty) (v.toInt r.1 r.2)

/-- emax of R275. -/
def mxEmax (ty : Nat) : Int :=
  if ty = 0x0A then 8 else if ty = 0x0B then 15 else if ty = 0x10 then 2 else if ty = 0x11 then 4 else if ty = 0x12 then 2 else 0

/-- Repack a block of values: its scale and its codes (R275). -/
def mxPack (ty : Nat) (vs : List FVal) : Nat × List Nat :=
  let special := vs.any fun v => match v with | .fin .. => false | _ => true
  if special then (0xFF, vs.map fun _ => 0) else
    match vs.foldl (fun (m : Option Int) v => match m, v.exp with
        | some a, some b => some (max a b) | none, b => b | a, none => a) none with
    | none => (0, vs.map fun v =>
        match tyMxFmt ty with | some f => f.encode true v | none => 0)
    | some e =>
      let x := clampI (-127) 127 (e - mxEmax ty)
      ((x + 127).toNat, vs.map fun v =>
        match tyMxFmt ty with
        | some f => f.encode true (v.scale (-x))
        | none => uval 8 ((v.scale (6 - x)).toInt (-127) 127))

/-- The legal pairs of R274 with different types. -/
def pairOk (s d : Nat) : Bool :=
  let sf := (tyFloat s).isSome
  let df := (tyFloat d).isSome
  let wide (t : Nat) : Bool := t = 4 || t = 5 || t = 6
  (tyInt s && (d ≤ 2 || wide d)) || (sf && (df || d ≤ 2 || (0x21 ≤ d && tyOk d))) ||
    ((tyInt s || sf) && (d = 0x18 || d = 0x19)) || (tyMx s && wide d) || (wide s && tyMx d)

end Sys2Proof.Machine
end

