-- ==== Sys2Proof/Machine/Xfers.lean ====
section
/-! DEFINITION. Transfers in flight (R304, R306, R308, R383): the runs of bytes that each reads and writes, how a run
reaches a drawer, host memory or another device, and how a transfer goes from reading to writing to complete. -/

namespace Sys2Proof.Machine

/-! ### Places -/

/-- The space of a place and its offset there. -/
def Place.key : Place → (Nat × Nat × Nat) × Nat
  | .drawer b o => ((0, 0, b), o)
  | .host a => ((1, 0, 0), a)
  | .remote d b o => ((2, d, b), o)
  | .remoteHost d a => ((3, d, 0), a)
  | .dslot o => ((4, 0, 0), o)

/-- The place `n` bytes further. -/
def Place.add (p : Place) (n : Nat) : Place :=
  match p with
  | .drawer b o => .drawer b (o + n)
  | .host a => .host (a + n)
  | .remote d b o => .remote d b (o + n)
  | .remoteHost d a => .remoteHost d (a + n)
  | .dslot o => .dslot (o + n)

/-- The bit place `n` bits further. -/
def BitPlace.add (p : BitPlace) (n : Nat) : BitPlace :=
  { place := p.place.add ((p.bit + n) / 8), bit := (p.bit + n) % 8 }

/-- The space of a bit place and its bit address there. -/
def BitPlace.key (p : BitPlace) : (Nat × Nat × Nat) × Nat := (p.place.key.1, 8 * p.place.key.2 + p.bit)

/-- Order of keys. -/
def keyLt (a b : (Nat × Nat × Nat) × Nat) : Bool :=
  let l (k : (Nat × Nat × Nat) × Nat) : List Nat := [k.1.1, k.1.2.1, k.1.2.2, k.2]
  decide (l a < l b)

/-- Whether bit place `b` follows `n` bits of `a`. -/
def BitPlace.follows (a b : BitPlace) (n : Nat) : Bool := a.key.1 == b.key.1 && a.key.2 + n == b.key.2

/-- The bits that a run may cover from a place under the limits of R308: to the next 4 KiB boundary of host
memory, or 64 rows of a drawer. -/
def BitPlace.room (p : BitPlace) : Nat :=
  let o := p.place.key.2
  8 * (4096 - (match p.place with | .host _ | .remoteHost .. => o % 4096 | _ => o % 64)) - p.bit

/-- Whether two runs share a byte. -/
def Run.meets (a b : Run) : Bool :=
  let x := a.place.key
  let y := b.place.key
  x.1 == y.1 && decide (x.2 < y.2 + b.n) && decide (y.2 < x.2 + a.n)

/-- The run that covers `bits` bits from a bit place. -/
def runOf (p : BitPlace) (bits : Nat) : Run :=
  let n := (p.bit + bits + 7) / 8
  { place := p.place, n, lo := p.bit, hi := (p.bit + bits + 7) % 8 }

/-- The byte at a place among runs whose data has arrived; 0 where none holds it. -/
def byteAt (runs : List Run) (p : Place) : Nat :=
  let k := p.key
  match runs.find? fun r => r.place.key.1 == k.1 && decide (r.place.key.2 ≤ k.2) && decide (k.2 < r.place.key.2 + r.n) && r.data.isSome with
  | some r => ((r.data.getD []).getD (k.2 - r.place.key.2) 0).toNat
  | none => 0

/-- `w` bits from a bit place, among runs. -/
def bitsAt (runs : List Run) (p : BitPlace) (w : Nat) : Nat :=
  leNat ((List.range ((p.bit + w + 7) / 8)).map fun i => BitVec.ofNat 8 (byteAt runs (p.place.add i))) / 2 ^ p.bit % 2 ^ w

/-! ### Pieces -/

/-- The planes of one side of a piece: those that it covers (R255); a byte-packed type has one run. -/
def TySel.planes (t : TySel) : List Nat :=
  if tyPlanes t.ty = 0 then [0] else (List.range (t.hi + 1)).filter fun j => t.lo ≤ j

/-- The bit places and widths of an element of one side: its covered planes, and its scale. -/
def TySel.spots (t : TySel) (e : ELoc) : List (BitPlace × Nat) :=
  (t.planes.map fun j => ({ e.at_ with place := e.at_.place.add (t.pstride * j) }, tyUnit t.ty)) ++
    (match e.scale with | some p => [({ place := p, bit := 0 }, 8)] | none => [])

/-- The code of an element among runs; planes that are not covered count as 0 (R255). -/
def TySel.code (t : TySel) (runs : List Run) (e : ELoc) : Nat :=
  (t.planes.map fun j =>
    bitsAt runs { e.at_ with place := e.at_.place.add (t.pstride * j) } (tyUnit t.ty) * 2 ^ j).sum

/-- Insert into a list kept in order of keys. -/
def insertSpot (x : BitPlace × Nat) : List (BitPlace × Nat) → List (BitPlace × Nat)
  | [] => [x]
  | y :: t => if keyLt x.1.key y.1.key then x :: y :: t else y :: insertSpot x t

/-- Join bit spots that lie next to each other into runs within the limits of R308. -/
def joinSpots (l : List (BitPlace × Nat)) : List Run :=
  let sorted := l.foldl (fun acc x => insertSpot x acc) []
  let joined := sorted.foldl (fun (acc : List (BitPlace × Nat)) x =>
    match acc with
    | (p, n) :: rest =>
      if x.1 = p ∨ (x.1.key.1 == p.key.1 && decide (x.1.key.2 + x.2 ≤ p.key.2 + n)) then acc
      else if p.follows x.1 n && decide (n + x.2 ≤ p.room) then (p, n + x.2) :: rest else x :: acc
    | [] => [x]) []
  joined.reverse.map fun x => runOf x.1 x.2

/-- The values that a converting piece gives its destination elements: codes and scales (R274, R275). -/
def convOut (runs : List Run) (s d : TySel) (els : List (Option ELoc × Option ELoc)) : List (BitPlace × Nat × Nat) :=
  let val (e : Option ELoc) : FVal := match e with
    | none => .ofInt 0
    | some e =>
      let c := s.code runs e
      if tyMx s.ty then
        mxVal s.ty c (match e.scale with | some p => byteAt runs p | none => 127)
      else elVal s.ty c
  let spread (e : ELoc) (code : Nat) : List (BitPlace × Nat × Nat) :=
    d.planes.map fun j =>
      ({ e.at_ with place := e.at_.place.add (d.pstride * j) }, tyUnit d.ty,
        if tyPlanes d.ty = 0 then code else bitN code j)
  if tyMx d.ty then
    let scales := (els.filterMap fun e => e.2.bind fun x => x.scale).eraseDups
    scales.flatMap fun sp =>
      let blk := els.filter fun e => match e.2 with | some x => x.scale = some sp | none => false
      let (sc, codes) := mxPack d.ty (blk.map fun e => val e.1)
      ({ place := sp, bit := 0 }, 8, sc) ::
        (List.zip blk codes).flatMap fun (e : (Option ELoc × Option ELoc) × Nat) =>
          match e.1.2 with | some x => spread x e.2 | none => []
  else els.flatMap fun e => match e.2 with | some x => spread x (elCode d.ty (val e.1)) | none => []

/-- Overwrite bits of a byte list that starts at bit address `base` of a space. -/
def patchBits (space : Nat × Nat × Nat) (base : Nat) (bytes : List Byte) (w : BitPlace × Nat × Nat) : List Byte :=
  let k := w.1.key
  if k.1 == space && decide (base ≤ k.2) && decide (k.2 + w.2.1 ≤ base + 8 * bytes.length) then
    let n := leNat bytes
    let sh := k.2 - base
    let old := n / 2 ^ sh % 2 ^ w.2.1
    leBytes bytes.length (n - old * 2 ^ sh + w.2.2 % 2 ^ w.2.1 * 2 ^ sh)
  else bytes

/-- Whether only a part of the bits of a run's first or last byte is written. -/
def Run.partBits (r : Run) : Bool := r.lo != 0 || r.hi != 7

/-! ### Reading and writing a run -/

/-- Bytes of a bench's drawer as port B reads them: the data, and whether it carries poison (R324). -/
def State.readDrawer (s : State) (b off n : Nat) : State × List Byte × Bool :=
  let v := s.bench b
  let l := v.eccIn siteDrawer off n
  (s.eccReports b l, v.drawer.getBytes off n, eccBad l)

/-- What an addition reads from a drawer is in error (R324). -/
def Bench.addBad (v : Bench) (off n : Nat) (add : Option AccTy) : Bool := add.isSome && eccBad (v.eccIn siteDrawer off n)

/-- Write a run into a drawer of the device: whole bytes, the bits that it covers, or an addition (R182, R254). A word of which it
keeps a part, and a word that it adds to, keeps its poison, and an error that it meets there is reported (R324, R331, R368). -/
def State.landRun (s : State) (b off : Nat) (r : Run) (add : Option AccTy) : State :=
  let v := s.bench b
  let new := r.data.getD []
  let old := v.drawer.getBytes off r.n
  let bytes := match add with
    | some ty => ((List.zip (chunks ty.bytes old) (chunks ty.bytes new)).flatMap fun (e : List Byte × List Byte) =>
        leBytes ty.bytes (ty.addEl (leNat e.1) (leNat e.2))).take r.n
    | none =>
      if r.partBits then
        new.mapIdx fun i x =>
          let m : Byte := (if i = 0 then BitVec.ofNat 8 (256 - 2 ^ r.lo) else 0xFF) &&&
            (if i + 1 = r.n then BitVec.ofNat 8 (2 ^ (r.hi + 1) - 1) else 0xFF)
          (x &&& m) ||| (old.getD i 0 &&& ~~~m)
      else new
  if v.ecc.isEmpty then s.modBench b fun v => v.writeDrawer off bytes r.poison
  else
    let read := if add.isSome then v.eccIn siteDrawer off r.n else []
    let part := v.partWords off r.n (off + b2n (r.lo ≠ 0)) (off + r.n - b2n (r.hi ≠ 7))
    let s := s.eccReports b (if add.isSome then read else part.filter fun e => e.2 = .double)
    let bad := if add.isSome then read.filter fun e => e.2 = .double || e.2 = .poison else part
    s.modBench b fun v =>
      let w := v.writeDrawer off bytes r.poison
      { w with ecc := bad.foldl (fun t e => tset .ok t e.1 .poison) w.ecc }

/-- The transfer of bench `b` under a tag. -/
def Bench.xfer? (v : Bench) (t : Nat) : Option Xfer := v.xfers.find? fun x => x.tag = t
/-- Change the transfer of bench `b` under tag `t`. -/
def State.modXfer (s : State) (b t : Nat) (f : Xfer → Xfer) : State :=
  s.modBench b fun v => { v with xfers := v.xfers.map fun x => if x.tag = t then f x else x }

/-- Change run `i` of the reads of a transfer. -/
def Xfer.modRead (x : Xfer) (i : Nat) (f : Run → Run) : Xfer := { x with reads := x.reads.modify i f }
/-- Change run `i` of the writes of a transfer. -/
def Xfer.modWrite (x : Xfer) (i : Nat) (f : Run → Run) : Xfer := { x with writes := x.writes.modify i f }
/-- The type that a transfer adds in, if it adds (R181, R240). -/
def Xfer.addTy (x : Xfer) : Option AccTy :=
  match x.msg, x.piece with
  | some (.accum t), _ => some t
  | _, some (.conv _ _ _ a _) => a
  | _, _ => none

/-- A run waits for an answer. -/
def Run.waiting (r : Run) : Bool := r.sent && !r.done
/-- A run of another device waits for an answer: one message at a time is under way for a tag. -/
def Xfer.farBusy (x : Xfer) : Bool :=
  (x.reads ++ x.writes).any fun r => r.waiting && match r.place with | .remote .. => true | _ => false

/-- Its packets carry the secure flag: a message of secure-mode code (R350). -/
def Xfer.sec (x : Xfer) : Bool := x.secure && x.msg.isSome

/-- A run ends with a failing status (R323), and its landing is free. -/
def State.failRun (s : State) (b t : Nat) (write : Bool) (i status : Nat) : State :=
  let s : State := { s with noc := { s.noc with landings := s.noc.landings.filter fun e =>
    !(e.2.1.who = .bench b && e.2.1.tag = t && e.2.1.write = write && e.2.1.run = i) } }
  s.modXfer b t fun x =>
    let x := { x with status := if x.status < 2 then status else x.status }
    if write then x.modWrite i fun r => { r with sent := true, done := true }
    else x.modRead i fun r => { r with sent := true, done := true }

/-- Word 0 of a message header (R417). -/
def hdr0 (mop ty db sb tag : Nat) : Word := w32 (mop + ty * 16 + db * 256 + sb * 2 ^ 15 + tag * 2 ^ 22)

/-- TY of ACCUM as its code (R181). -/
def accumCode : AccTy → Nat
  | .int32 => 0 | .fp32 => 1 | .bf16 => 2 | .fp16 => 3 | .int16 => 4 | .int8 => 5

/-- The message that run `i` of a transfer sends to another device (R417, R418). -/
def farMsg (b : Nat) (x : Xfer) (write : Bool) (r : Run) (dev tb off : Nat) : OutMsg :=
  match x.msg with
  | some (.post p q) => { mop := 4, dev, part := x.part, w0 := hdr0 4 0 tb b x.tag, w1 := 0, w2 := p, w3 := q }
  | some (.dowel op i v) =>
    { mop := 5, dev, part := x.part, w0 := hdr0 5 0 0 b x.tag, w1 := w32 (i + op * 32), w2 := v, w3 := 0 }
  | _ =>
    if write then
      match x.addTy with
      | some ty => { mop := 3, dev, part := x.part, w0 := hdr0 3 (accumCode ty) tb b x.tag, w1 := w32 off, w2 := 0
                     w3 := w32 r.n, data := r.data.getD [], poison := r.poison }
      | none => { mop := 0, dev, part := x.part, w0 := hdr0 0 0 tb b x.tag, w1 := w32 off, w2 := 0
                  w3 := w32 r.n, data := r.data.getD [], poison := r.poison }
    else { mop := 1, dev, part := x.part, w0 := hdr0 1 0 tb b x.tag, w1 := w32 off
           w2 := w32 (match x.writes.head? with | some w => (match w.place with | .drawer _ o => o | _ => 0) | none => 0)
           w3 := w32 r.n }

/-! ### Requests on the NoC (R383, R384) -/

/-- The run for which packets of a bench act, while it waits for them. -/
def State.askRun (s : State) (o : Ask) : Option (Nat × Xfer × Run) :=
  match o.who with
  | .bench b => match (s.bench b).xfer? o.tag with
    | none => none
    | some x => match (if o.write then x.writes else x.reads)[o.run]? with
      | none => none
      | some r => if r.waiting && r.tries = o.tries then some (b, x, r) else none
  | _ => none

/-- Change the run for which packets of a bench act. -/
def State.modRun (s : State) (o : Ask) (f : Run → Run) : State :=
  match o.who with
  | .bench b => s.modXfer b o.tag fun x => if o.write then x.modWrite o.run f else x.modRead o.run f
  | _ => s

/-- The endpoint that serves a run of bench `b`: the bench that owns the drawer, its HPP module (R381), or the Molarga port on the way to
another device (R427); none where there is none. -/
def State.serverOf (s : State) (b : Nat) (r : Run) : Option Endp :=
  match r.place with
  | .drawer k _ => some (.bench k)
  | .host _ => (s.benchModule b).map .hpp
  | .remote d _ _ => (s.nextHop d s.dev.id.toNat).map fun h => .port h.2.2
  | _ => none

/-- A message that its target carries out from its REQ packet alone: a POST or a remote DOW (R383). -/
def MsgOp.small : MsgOp → Bool
  | .post .. | .dowel .. => true
  | _ => false

/-- Ask for run `i` of the transfer `x` of bench `b` on REQ VN0 (R378, R383); its tag holds the landings of all that comes back (R384).
With no endpoint to serve it the run fails with status 4. -/
def State.ask (s : State) (b : Nat) (x : Xfer) (write : Bool) (i : Nat) (r : Run) : State :=
  match s.serverOf b r with
  | none => s.failRun b x.tag write i 4
  | some e =>
    let o : Ask := { who := .bench b, tag := x.tag, write, run := i, tries := r.tries }
    (s.inject .req (.bench b) [e] 0 x.part x.sec
      (if x.msg.any MsgOp.small then .op o else if write then .write o else .read o)).modRun o fun r => { r with sent := true, told := false }

/-- The answer to a read: its data on DAT and the end on RSP (R383). -/
def State.giveData (s : State) (src : Endp) (o : Ask) (vc part : Nat) (secure : Bool) (bytes : List Byte) (poison : Bool) : State :=
  (s.inject .dat src [o.who] vc part secure (.data o bytes poison)).inject .rsp src [o.who] 0 part secure (.done o 0)

/-- The end of a request, with its status (R383, R399). -/
def State.giveEnd (s : State) (src : Endp) (o : Ask) (part : Nat) (secure : Bool) (status : Nat) : State :=
  s.inject .rsp src [o.who] 0 part secure (.done o status)

/-- Start reading run `i` of the transfer under tag `t` of bench `b`. A run of its own drawer in bank 15 waits for the wipe (R367) and,
without the secure flag, is refused (R350). -/
def State.startRead (s : State) (b t i : Nat) : State :=
  match (s.bench b).xfer? t with
  | none => s
  | some x => match x.reads[i]? with
    | none => s
    | some r =>
      if r.sent then s else match r.place with
      | .drawer k off =>
        if k ≠ b then s.ask b x false i r
        else if s.wipeHolds off r.n then s
        else if 0x1E0000 < off + r.n ∧ x.sec = false then s.failRun b t false i 2
        else
          let (s, d, po) := s.readDrawer b off r.n
          s.modXfer b t fun x => { x.modRead i fun r => { r with data := some d, poison := po, sent := true, done := true } with poison := x.poison || po }
      | .remote .. => if x.farBusy then s else s.ask b x false i r
      | _ => s.ask b x false i r

/-- A write of a transfer into a drawer of the device lands. What a stream writes, the Jig core there does not see yet (R305). -/
def State.landWrite (s : State) (b k off : Nat) (x : Xfer) (r : Run) : State :=
  let s := s.landRun k off r x.addTy
  match x.stream with
  | some id =>
    let tag := match (s.bench b).stream? id with | some st => st.tag | none => x.tag
    s.modBench k fun v => v.hide { bench := b, stream := id, tag, off, n := r.n }
  | none => s.modBench k fun v => v.see off r.n

/-- The slice that a run of host memory of a partition with ways goes through: that of its first line (R340; DESIGN CHOICE, log 124). -/
def State.sliceFor (s : State) (x : Xfer) (r : Run) : Option Endp :=
  match r.place with
  | .host _ => if x.cached && (s.ten x.part).ways != 0 then some (.slice (sliceOf (r.pa / 128))) else none
  | _ => none

/-- The writes of a broadcast leave as one multicast on DAT VC3 to every target (R316, R387): from the slice that holds the data, or
from the issuing bench where no slice read it. -/
def State.startCast (s : State) (b : Nat) (x : Xfer) : State :=
  match x.writes with
  | [] => s
  | r :: _ =>
    if r.sent then s else
      let src := (x.reads.findSome? fun q => s.sliceFor x q).getD (.bench b)
      let dst := (x.writes.filterMap fun q => match q.place with | .drawer k _ => some (Endp.bench k) | _ => none).eraseDups
      let n := (x.writes.filterMap fun q => match q.place with | .drawer k _ => if dst.head? = some (.bench k) then some q.n else none | _ => none).sum
      let s := s.inject .dat src dst 3 x.part false (.mdata { who := .bench b, tag := x.tag, write := true, tries := r.tries }) (1 + (n + 63) / 64)
      s.modXfer b x.tag fun x => { x with writes := x.writes.map fun q => { q with sent := true } }

/-- Start writing run `i` of the transfer under tag `t` of bench `b`. -/
def State.startWrite (s : State) (b t i : Nat) : State :=
  match (s.bench b).xfer? t with
  | none => s
  | some x => match x.writes[i]? with
    | none => s
    | some r =>
      if r.sent then s else if x.mcast then s.startCast b x else match r.place with
      | .drawer k off =>
        if k ≠ b ∨ x.msg.any MsgOp.small then s.ask b x true i r
        else if s.wipeHolds off r.n then s
        else if 0x1E0000 < off + r.n ∧ x.sec = false then s.failRun b t true i 2
        else
          let bad := (s.bench b).addBad off r.n x.addTy
          (s.landWrite b b off x r).modXfer b t fun x =>
            { x.modWrite i fun r => { r with sent := true, done := true } with poison := x.poison || bad }
      | .remote .. => if x.farBusy then s else s.ask b x true i r
      | _ => s.ask b x true i r

/-! ### From reading to complete -/

/-- The data of the writes of a transfer whose reads are done. -/
def Xfer.fillWrites (x : Xfer) : List Run :=
  let poison := x.poison || x.reads.any (·.poison)
  let old (r : Run) : List Byte := (List.range r.n).map fun i => BitVec.ofNat 8 (byteAt x.reads (r.place.add i))
  match x.piece with
  | some (.copy _ src _ bits) =>
    let v := match src with | some p => bitsAt x.reads p bits | none => 0
    x.writes.map fun r =>
      let new := leBytes r.n (v * 2 ^ r.lo)
      let keep : List Byte := match r.place with
        | .drawer .. => new
        | _ => if r.partBits then
            let o := leNat (old r)
            let m := (2 ^ bits - 1) * 2 ^ r.lo
            leBytes r.n (v * 2 ^ r.lo + (o - (o &&& m)))
          else new
      { r with data := some keep, poison }
  | some (.conv _ s d add els) =>
    match add with
    | some ty =>
      x.writes.map fun r =>
        let k := r.place.key
        let w := 8 * ty.bytes
        let vals := els.filterMap fun e => match e.2 with
          | some y => if y.at_.place.key.1 == k.1 then
              some (y.at_, w, match e.1 with | some z => s.code x.reads z | none => 0) else none
          | none => none
        let host : Bool := match r.place with | .host _ => true | _ => false
        let zero := List.replicate r.n (0 : Byte)
        if host then
          { r with
            data := some (vals.foldl (fun bs v =>
              let now := leNat ((bs.drop (v.1.place.key.2 - k.2)).take ty.bytes)
              patchBits k.1 (8 * k.2) bs (v.1, w, ty.addEl now v.2.2)) (old r)), poison }
        else { r with data := some (vals.foldl (fun bs v => patchBits k.1 (8 * k.2) bs v) zero), poison }
    | none =>
      let out := convOut x.reads s d els
      x.writes.map fun r =>
        let k := r.place.key
        let slot : (Nat × Nat × Nat) := k.1
        let put (bs : List Byte) (v : BitPlace × Nat × Nat) : List Byte := patchBits slot (8 * k.2) bs v
        { r with data := some (out.foldl put (old r)), poison }
  | _ => match x.msg, x.reads with
    | some .get, r :: _ => x.writes.map fun w => { w with data := r.data, poison }
    | _, _ => x.writes

/-- Earlier transfers of the same stream that are not complete (R304). -/
def Bench.before (v : Bench) (x : Xfer) : List Xfer :=
  v.xfers.filter fun y => y.stream.isSome && y.stream = x.stream && decide (y.order < x.order) && y.stage != .complete

/-- A transfer may read: no earlier one of its stream still writes what it reads (R304). -/
def Bench.mayRead (v : Bench) (x : Xfer) : Bool :=
  !(v.before x).any fun y => y.writes.any fun w => x.reads.any w.meets

/-- Whether a run of host memory shares a byte with another one. -/
def Run.hostMeets (a b : Run) : Bool :=
  match a.place, b.place with
  | .host _, .host _ => decide (a.pa < b.pa + b.n) && decide (b.pa < a.pa + a.n)
  | _, _ => false

/-- A SCATTER_ADD into host memory has begun and is not over. -/
def Xfer.adding (x : Xfer) : Bool :=
  x.addTy.isSome && x.stream.isSome && x.stage != .complete && (x.stage = .writing || x.reads.any (·.sent))

/-- No other transfer of the device is adding into the host bytes that a transfer adds into: every addition there is whole (R241). -/
def State.mayAdd (s : State) (b : Nat) (x : Xfer) : Bool :=
  x.addTy.isNone || x.adding || !s.benches.any fun e => e.2.xfers.any fun y =>
    !(e.1 = b && y.tag = x.tag) && y.adding && y.writes.any fun w => x.writes.any w.hostMeets
/-- A transfer may write: no earlier one of its stream still reads or writes there (R304). -/
def Bench.mayWrite (v : Bench) (x : Xfer) : Bool :=
  !(v.before x).any fun y => (y.writes ++ (y.reads.filter fun r => !r.done)).any fun w => x.writes.any w.meets

/-- Advance the transfer under tag `t` of bench `b` by one stage, where it can. -/
def State.advance1 (s : State) (b t : Nat) : State :=
  match (s.bench b).xfer? t with
  | none => s
  | some x =>
    let v := s.bench b
    if 2 ≤ x.status then
      if (x.reads ++ x.writes).any Run.waiting then s else s.modXfer b t fun x => { x with stage := .complete }
    else match x.stage with
    | .reading =>
      let s := if v.mayRead x && s.mayAdd b x then (List.range x.reads.length).foldl (fun s i => s.startRead b t i) s else s
      match (s.bench b).xfer? t with
      | none => s
      | some x =>
        if x.reads.all (·.done) && decide (x.status < 2) then
          s.modXfer b t fun x => { x with writes := x.fillWrites, stage := .writing }
        else s
    | .writing =>
      let s := if v.mayWrite x then (List.range x.writes.length).foldl (fun s i => s.startWrite b t i) s else s
      match (s.bench b).xfer? t with
      | none => s
      | some x =>
        if x.writes.all (·.done) then
          s.modXfer b t fun x => { x with stage := .complete, status := if x.status < 2 then b2n (x.poison || x.reads.any (·.poison)) else x.status }
        else s
    | .complete => s

/-- Advance every transfer of bench `b` as far as it goes: each may pass three stages, in order of issue. -/
def State.advance (s : State) (b : Nat) : State :=
  ((s.bench b).xfers.map (·.tag)).foldl (fun s t => ((s.advance1 b t).advance1 b t).advance1 b t) s

/-- Advance every transfer of the device. -/
def State.advanceAll (s : State) : State := (s.benches.map (·.1)).foldl (fun s b => s.advance b) s

/-- Add a transfer to bench `b` and start it. -/
def State.startXfer (s : State) (b : Nat) (x : Xfer) : State :=
  (s.modBench b fun v => { v with xfers := v.xfers ++ [{ x with order := v.nextXfer }], nextXfer := v.nextXfer + 1 }).advance b

/-! ### The end of a run (R383, R402) -/

/-- A run has its bytes and its answer; a read of WARM delivers none (R315). -/
def Run.settle (x : Xfer) (r : Run) : Run :=
  let warm : Bool := match x.piece with | some (.warm ..) => true | _ => false
  { r with done := r.told && (r.data.isSome || warm) }

/-- The end of a run reaches its bench, with a status. One of 5 for a POST or DOW is logged (R577, R581). -/
def State.endAsk (s : State) (o : Ask) (status : Nat) : State :=
  match s.askRun o with
  | none => s
  | some (b, x, _) =>
    if 2 ≤ status then
      let s := if status = 5 && x.msg.any MsgOp.small then s.log (srcBench b) 0x11 x.part (w32 errRANGE) (w32 x.addr) (w32 o.tag) else s
      (s.failRun b o.tag o.write o.run status).modXfer b o.tag fun y =>
        if o.write && x.mcast then { y with writes := y.writes.map fun r => { r with done := true } } else y
    else
      s.modXfer b o.tag fun x =>
        let x := { x with poison := x.poison || status = 1 }
        if o.write then
          if x.mcast then { x with writes := x.writes.map fun r => { r with done := true } } else x.modWrite o.run fun r => { r with done := true }
        else x.modRead o.run fun r => Run.settle x { r with told := true }

/-- The data of a read reach the rows or the slot that its tag holds for them (R384). -/
def State.landData (s : State) (o : Ask) (bytes : List Byte) (poison : Bool) : State :=
  match s.askRun o with
  | none => s
  | some (b, _, _) =>
    s.modXfer b o.tag fun x =>
      { x.modRead o.run fun r => Run.settle x { r with data := some bytes, poison } with poison := x.poison || poison }

/-! ### Reads of the Veneer cache (R345, R346) -/

/-- The lines of a lookup that it does not have. -/
def Lookup.lacks (k : Lookup) : List Nat := (linesOf k.pa k.n).filter fun l => !k.got.any fun g => g.1 = l
/-- The bytes of a lookup that has all its lines. -/
def Lookup.bytes (k : Lookup) : List Byte :=
  (((linesOf k.pa k.n).flatMap fun l => match k.got.find? fun g => g.1 = l with | some g => g.2 | none => []).drop (k.pa % 128)).take k.n
/-- The slice of a lookup's first line. -/
def Lookup.slice (k : Lookup) : Nat := sliceOf (k.pa / 128)

/-- A fill of a line is in progress for a partition (R346; of its own partition, whose ways it fills: DESIGN CHOICE, log 48). -/
def State.filling (s : State) (p l : Nat) : Bool := s.veneer.looks.any fun k => k.part = p && k.fills.any fun f => f.1 = l
/-- Fills in progress at a slice (R346). -/
def State.fillCount (s : State) (sl : Nat) : Nat :=
  ((s.veneer.looks.flatMap (·.fills)).filter fun f => sliceOf f.1 = sl).length
/-- The slices have fill entries for a list of lines. -/
def State.fillRoom (s : State) (ls : List Nat) : Bool :=
  ls.all fun l => decide (s.fillCount (sliceOf l) + (ls.filter fun m => sliceOf m = sliceOf l).length ≤ 32)

/-- Change the lookup of a run. -/
def State.modLook (s : State) (o : Ask) (f : Lookup → Lookup) : State :=
  { s with veneer := { s.veneer with looks := s.veneer.looks.map fun k => if k.o = o then f k else k } }
/-- A lookup ends. -/
def State.dropLook (s : State) (o : Ask) : State :=
  { s with veneer := { s.veneer with looks := s.veneer.looks.filter fun k => k.o ≠ o } }

/-- A lookup takes the lines that hit, and fetches all its missing lines that no fill brings in one host read, once the slices have
entries for them (R345, R346). -/
def State.lookStep (s : State) (o : Ask) : State :=
  match s.veneer.looks.find? fun k => k.o = o with
  | none => s
  | some k =>
    let s := s.veneerLook k.lacks
    let s := k.lacks.foldl (fun (s : State) l =>
      match s.veneerHit k.part l with
      | some w => let (s, d) := s.veneerRead w l; s.modLook o fun k => { k with got := k.got ++ [(l, d)] }
      | none => s) s
    match s.veneer.looks.find? fun k => k.o = o with
    | none => s
    | some k =>
      let miss := k.lacks.filter fun l => !s.filling k.part l
      let m := match o.who with | .bench b => s.benchModule b | _ => none
      if miss.isEmpty || !k.fills.isEmpty || !s.fillRoom miss then s
      else match m with
        | some m => (s.modLook o fun k => { k with fills := miss.map fun l => (l, true) }).inject .req (.slice k.slice) [.hpp m] 0 k.part false (.miss o)
        | none => (s.dropLook o).giveEnd (.slice k.slice) o k.part false 4

/-- A lookup that has all its lines is answered: with the end alone for WARM (R315), and not at all for a broadcast, whose data the slice
sends itself (R316). -/
def State.lookEnd (s : State) (o : Ask) : State :=
  match s.veneer.looks.find? fun k => k.o = o with
  | none => s
  | some k =>
    if !k.lacks.isEmpty then s else
      let s := s.dropLook o
      match s.askRun o with
      | none => s
      | some (_, x, _) =>
        if x.mcast then (s.landData o k.bytes k.poison).endAsk o 0
        else match x.piece with
          | some (.warm ..) => s.giveEnd (.slice k.slice) o k.part false (b2n k.poison)
          | _ => s.giveData (.slice k.slice) o 0 k.part false k.bytes k.poison

/-- Every lookup goes on, in order. -/
def State.pumpLooks (s : State) : State :=
  let l := s.veneer.looks.map (·.o)
  l.foldl (fun (s : State) o => (s.lookStep o).lookEnd o) s

/-- A lookup begins (R345). -/
def State.startLook (s : State) (k : Lookup) : State :=
  ({ s with veneer := { s.veneer with looks := s.veneer.looks ++ [k] } } : State).pumpLooks

/-- The fill of a lookup reaches the slice: its lines are installed, unless they carry poison or may not be (R367), and serve every
lookup of the partition that waits for them (R346). -/
def State.fillLook (s : State) (o : Ask) (bytes : List Byte) (poison : Bool) : State :=
  match s.veneer.looks.find? fun k => k.o = o with
  | none => s
  | some k =>
    let ls := k.fills.mapIdx fun i f => (f.1, f.2, (bytes.drop (128 * i)).take 128)
    let s := s.modLook o fun k => { k with fills := [] }
    let s := if poison then s else ls.foldl (fun (s : State) f => if f.2.1 then s.veneerFill k.part f.1 f.2.2 else s) s
    let give (q : Lookup) : Lookup :=
      if q.part ≠ k.part then q else
        ls.foldl (fun (q : Lookup) f => if q.lacks.contains f.1 then { q with got := q.got ++ [(f.1, f.2.2)], poison := q.poison || poison } else q) q
    ({ s with veneer := { s.veneer with looks := s.veneer.looks.map give } } : State).pumpLooks

end Sys2Proof.Machine
end

