-- ==== Sys2Proof/Machine/StreamInsn.lean ====
section
/-! DEFINITION. The stream, rack, message and dowel instructions (R178 to R184, R292, R555). -/

namespace Sys2Proof.Machine

/-- A 32-bit word of the drawer at an offset. -/
def Bench.dword (v : Bench) (off : Nat) : Nat := leNat (v.drawer.getBytes off 4)

/-- The racks that a descriptor of a stream of bench `b` names, as the stream holds them (R289, R295): its source rack, and its
destination rack, on every target of a broadcast. -/
def racksOf (b : Nat) (d : List Byte) : List (Bool × Nat × Nat) :=
  let w := leNat ((d.drop 0x10).take 4)
  let r := leNat ((d.drop 0x2C).take 2)
  let m := BitVec.ofNat 128 (leNat ((d.drop 0x30).take 16))
  (if bitN w 4 = 1 then [(false, b, r % 4)] else []) ++
    (if bitN w 5 = 1 then (if fld w 7 6 = 2 then maskList m else [b]).map fun k => (true, k, r / 4 % 4) else [])

/-- SGO (R179): start a stream and return its tag. -/
def execSgo (b : Bench7) (rd ra : Reg) (s : State) : Out :=
  .next (issue b .plain always [rd, ra] (fun s =>
    let k := b.toNat
    let v := s.bench k
    let a := v.cc.reg ra
    if a.toNat % 64 ≠ 0 then .exc exALIGN (some a)
    else if 0x200000 ≤ a.toNat then .exc exFENCE (some a)
    else match v.allocTag v.cc.part v.cc.cmd with
      | none => .hold
      | some (t, v) =>
        let st : Stream :=
          { id := v.nextStream, born := s.nextSgo, tag := t, nextDesc := a.toNat, part := s.actsFor k, cmd := v.cc.cmd
            secure := v.cc.mode = mSecure, holds := racksOf k (v.drawer.getBytes a.toNat 64) }
        let s := { s.setBench k { v with streams := v.streams ++ [st], nextStream := v.nextStream + 1 } with nextSgo := s.nextSgo + 1 }
        Res.reg s b rd (w32 t)) s)

/-- The Jig core sees what the stream of a tag has written once it reads status 0 or 1 for it (R305). -/
def Bench.seeTag (v : Bench) (b t : Nat) : Bench :=
  if 2 ≤ v.tags.stat t then v else { v with unseen := v.unseen.filter fun u => !(u.bench = b && u.tag = t) }

/-- Read the status of a free tag into a register. -/
def Res.status (s : State) (b : Bench7) (rd : Reg) (t : Nat) : Res :=
  Res.reg (s.modBench b.toNat fun v => v.seeTag b.toNat t) b rd (w32 ((s.bench b.toNat).tags.stat t))

/-- TWAIT (R178, R179): the status of a tag, once it is complete. -/
def execTwait (b : Bench7) (rd ra : Reg) (s : State) : Out :=
  .next (issue b .plain always [rd, ra] (fun s =>
    let v := s.bench b.toNat
    let t := wfld (v.cc.reg ra) 5 0
    if v.tags.isFree t then Res.status s b rd t else .late (.tag t)) s)

/-- TTEST (R178): the status of a tag, or 0xFF while it is pending. -/
def execTtest (b : Bench7) (rd ra : Reg) (s : State) : Out :=
  .next (issue b .plain never [rd, ra] (fun s =>
    let v := s.bench b.toNat
    let t := wfld (v.cc.reg ra) 5 0
    if v.tags.isFree t then Res.status s b rd t else Res.reg s b rd 0xFF) s)

/-- RRES (R292): the producer reserves the next slot. -/
def execRres (b : Bench7) (rd : Reg) (rack : BitVec 2) (s : State) : Out :=
  .next (issue b .plain always [rd] (fun s =>
    let k := b.toNat
    let r := (s.bench k).rack rack.toNat
    if !r.enable || r.prod != 0 then .exc exILLEGAL none
    else if r.count ≤ r.inUse then .late (.freeSlot rack.toNat)
    else Res.reg (s.modRack k rack.toNat fun r => { r with res := r.res + 1 }) b rd (w32 (r.addr r.res.toNat))) s)

/-- RCMT (R292): the producer commits its oldest reserved slot. -/
def execRcmt (b : Bench7) (rack : BitVec 2) (s : State) : Out :=
  .next (issue b .plain always [] (fun s =>
    let k := b.toNat
    let r := (s.bench k).rack rack.toNat
    if !r.enable || r.prod != 0 || r.cmt == r.res then .exc exILLEGAL none
    else .ok (s.commitSlot k rack.toNat false true)) s)

/-- RACQ (R292): the consumer takes the next published slot; bit 0 of its address is the poison flag. The Jig core now sees what
streams wrote there (R305). -/
def execRacq (b : Bench7) (rd : Reg) (rack : BitVec 2) (s : State) : Out :=
  .next (issue b .plain always [rd] (fun s =>
    let k := b.toNat
    let r := (s.bench k).rack rack.toNat
    if !r.enable || r.cons != 0 then .exc exILLEGAL none
    else if r.ready = 0 then .late (.published rack.toNat)
    else
      let p := b2n (tget false r.poison (r.idx r.acq.toNat))
      let s := (s.modRack k rack.toNat fun r => { r with acq := r.acq + 1 }).modBench k fun v => v.see (r.addr r.acq.toNat) (2 ^ r.slotlog)
      Res.reg s b rd (w32 (r.addr r.acq.toNat + p))) s)

/-- RREL (R292): the consumer releases its oldest taken slot. -/
def execRrel (b : Bench7) (rack : BitVec 2) (s : State) : Out :=
  .next (issue b .plain always [] (fun s =>
    let k := b.toNat
    let r := (s.bench k).rack rack.toNat
    if !r.enable || r.cons != 0 || r.rel == r.acq then .exc exILLEGAL none
    else .ok (s.releaseSlot k rack.toNat)) s)

/-! ### Messages (R181 to R183) -/

/-- Log a refused message or dowel operation, and complete its tag with status 5 (R180). -/
def State.badMsg (s : State) (b t err addr : Nat) : State :=
  (s.log (srcBench b) 0x11 (s.actsFor b) (w32 err) (w32 addr) (w32 t)).completeTag b t 5 false

/-- The pieces of a message of `n` bytes at target offset `ra` and local offset `la`: at most 4,096 bytes each, cut
at 4 KiB-aligned target offsets (R418). -/
def msgCuts : Nat → Nat → Nat → Nat → List (Nat × Nat × Nat)
  | 0, _, _, _ => []
  | fuel + 1, ra, la, n =>
    if n = 0 then [] else
      let k := min n (4096 - ra % 4096)
      (ra, la, k) :: msgCuts fuel (ra + k) (la + k) (n - k)

/-- Issue pieces of messages that wait, while tags are free (R418). -/
def State.pumpMsgs (b : Nat) : Nat → State → State
  | 0, s => s
  | fuel + 1, s =>
    let v := s.bench b
    match v.msgQ with
    | [] => s
    | x :: rest =>
      match v.allocTag x.part (x.cmd) with
      | none => s
      | some (t, v) =>
        State.pumpMsgs b fuel ((s.setBench b { v with msgQ := rest }).startXfer b { x with tag := t })

/-- The status-5 checks of a message block, in the order of R183: an error code, or none. A LENGTH of 0 moves nothing, so neither
range is checked; a reserved bit that is not 0 comes before it (DESIGN CHOICE, log 109). -/
def msgCheck (secure : Bool) (sub : Nat) (w0 w1 w2 w3 : Nat) : Option Nat :=
  let len := w3 % 2 ^ 24
  let ty := w3 / 2 ^ 24 % 16
  if w0 / 2 ^ 19 ≠ 0 then some errRANGE
  else if sub = 3 then (if w2 / 2 ^ 16 = 0xD0E1 then some errRANGE else none)
  else if w3 / 2 ^ 28 ≠ 0 ∨ (sub = 2 ∧ 6 ≤ ty) ∨ (sub ≠ 2 ∧ ty ≠ 0) then some errRANGE
  else if len = 0 then none
  else if len % 4 ≠ 0 then some errLENGTH
  else if 0x200000 < w1 + len ∨ 0x200000 < w2 + len then some errRANGE
  else if !secure ∧ (0x1E0000 < w1 + len ∨ 0x1E0000 < w2 + len) then some errRANGE
  else none

/-- A message of the checked block at drawer address `addr`: its tag is `t` (R182). -/
def State.startMsg (s : State) (b t sub addr : Nat) (w0 w1 w2 w3 : Nat) : State :=
  let v := s.bench b
  let dev := w0 % 2 ^ 12
  let tb := w0 / 2 ^ 12 % 128
  let len := w3 % 2 ^ 24
  let own := dev = s.dev.id.toNat
  let base : Xfer :=
    { tag := t, order := v.nextXfer, born := s.now, dev, addr, part := s.actsFor b, cmd := v.cc.cmd, secure := v.cc.mode = mSecure }
  if sub = 3 then
    s.startXfer b
      { base with
        msg := some (.post (w32 w2) (w32 w3)), stage := .writing
        writes := [{ place := if own then .drawer tb 0 else .remote dev tb 0, n := 0, data := some [] }] }
  else if len = 0 then s.completeTag b t 0 false
  else
    let op : MsgOp := if sub = 1 then .get else if sub = 2 then .accum ((accumTy (w3 / 2 ^ 24 % 16)).getD .int32) else .put
    let far (o : Nat) : Place := if own then .drawer tb o else .remote dev tb o
    let (s, xs) := (msgCuts (len / 4096 + 2) w1 w2 len).foldl (fun (acc : State × List Xfer) c =>
      let (s, xs) := acc
      let n := xs.length
      let x := { base with msg := some op, parent := if n = 0 then none else some t, pno := n }
      if sub = 1 then
        (s, xs ++ [{ x with
          reads := [{ place := far c.1, n := c.2.2 }]
          writes := [{ place := .drawer b c.2.1, n := c.2.2 }] }])
      else
        let (s, d, p) := s.readDrawer b c.2.1 c.2.2
        (s, xs ++ [{ x with writes := [{ place := far c.1, n := c.2.2, data := some d, poison := p }], stage := .writing, poison := p }]))
      (s, [])
    match xs with
    | [] => s
    | x :: rest =>
      let s := s.startXfer b x
      State.pumpMsgs b 64 (s.modBench b fun v => { v with msgQ := v.msgQ ++ rest })

/-- An MSG instruction of SUB `sub` (R181, R183). -/
def msgOp (sub : Nat) (b : Bench7) (rd ra : Reg) (s : State) : State :=
  issue b .plain always [rd, ra] (fun s =>
    let k := b.toNat
    let v := s.bench k
    let a := v.cc.reg ra
    match lowest false false false
        (if v.cc.mode ≠ mSecure ∧ 0x1E0000 ≤ a.toNat ∧ a.toNat < 0x200000 then some (exPRIV, a)
         else if a.toNat % 16 ≠ 0 then some (exALIGN, a)
         else if 0x200000 ≤ a.toNat then some (exFENCE, a) else none) with
    | some e => .exc e.1 e.2
    | none =>
      if s.wipeHolds a.toNat 16 || (sub % 2 = 0 && s.wipeHolds (v.dword (a.toNat + 8)) (v.dword (a.toNat + 12) % 2 ^ 24)) then .hold else
      let l := v.eccIn siteDrawer a.toNat 16
      match v.allocTag v.cc.part v.cc.cmd with
      | none => .hold
      | some (t, v') =>
        let s' := s.eccReports k l
        if eccBad l then .fail s' else
          let s := (s.setBench k v').eccReports k l
          let (s, d) := s.jread k a.toNat 16
          let w (i : Nat) := leNat ((d.drop (4 * i)).take 4)
          let s := s.modCc k fun c => c.setReg rd (w32 t)
          .ok (match msgCheck (v.cc.mode = mSecure) sub (w 0) (w 1) (w 2) (w 3) with
            | some err => s.badMsg k t err a.toNat
            | none => s.startMsg k t sub a.toNat (w 0) (w 1) (w 2) (w 3))) s

/-- MSG PUT (R182). -/
def execMsgPut (b : Bench7) (rd ra : Reg) (s : State) : Out := .next (msgOp 0 b rd ra s)
/-- MSG GET (R182). -/
def execMsgGet (b : Bench7) (rd ra : Reg) (s : State) : Out := .next (msgOp 1 b rd ra s)
/-- MSG ACCUM (R182). -/
def execMsgAccum (b : Bench7) (rd ra : Reg) (s : State) : Out := .next (msgOp 2 b rd ra s)
/-- MSG POST (R182, R579). -/
def execMsgPost (b : Bench7) (rd ra : Reg) (s : State) : Out := .next (msgOp 3 b rd ra s)

/-! ### Dowel operations (R184) -/

/-- A DOW instruction: on a local dowel it travels to the dowel unit and its result returns (R556); on another device's it leaves as a
message under a tag (R184, R576). `gd`: the local operation has a result for `rd`. -/
def dowOp (op : Nat) (gd : Bool) (b : Bench7) (rd : Reg) (ra : Reg) (uses : List Reg) (v : Ctx → Word) (s : State) : State :=
  issue b .plain always (rd :: ra :: uses) (fun s =>
    let k := b.toNat
    let be := s.bench k
    let a := (be.cc.reg ra).toNat
    let p := s.actsFor k
    let x := v be.cc
    if a < 2 ^ 17 ∧ a / 32 = s.dev.id.toNat then
      .ok (s.askWord k (if gd then rd else 0) .foreman fun id => .dowel op (a % 32) x id)
    else match be.allocTag be.cc.part be.cc.cmd with
      | none => .hold
      | some (t, be') =>
        let s := s.setBench k be'
        let s := if 2 ^ 17 ≤ a ∨ op = 3 then s.badMsg k t errRANGE 0
          else
            let xf : Xfer :=
              { tag := t, order := be.nextXfer, msg := some (.dowel op (a % 32) x), dev := a / 32, part := p, cmd := be.cc.cmd
                stage := .writing, writes := [{ place := .remote (a / 32) 0 0, n := 0, data := some [] }] }
            s.startXfer k xf
        Res.reg s b rd (w32 t)) s

/-- DADD (R555): the old count is returned. -/
def execDadd (b : Bench7) (rd ra rb : Reg) (s : State) : Out := .next (dowOp 0 true b rd ra [rb] (fun c => c.reg rb) s)
/-- DSETT (R555). -/
def execDsett (b : Bench7) (rd ra rb : Reg) (s : State) : Out := .next (dowOp 1 false b rd ra [rb] (fun c => c.reg rb) s)
/-- DWAIT (R555). -/
def execDwait (b : Bench7) (rd ra : Reg) (s : State) : Out := .next (dowOp 2 false b rd ra [] (fun _ => 0) s)
/-- DRD (R555); of a remote dowel it completes with status 5 (R184). -/
def execDrd (b : Bench7) (rd ra : Reg) (s : State) : Out := .next (dowOp 3 true b rd ra [] (fun _ => 0) s)
/-- DCLR (R555). -/
def execDclr (b : Bench7) (rd ra : Reg) (s : State) : Out := .next (dowOp 4 false b rd ra [] (fun _ => 0) s)

end Sys2Proof.Machine
end

