-- ==== Sys2Proof/Machine/Streams.lean ====
section
/-! DEFINITION. The stream engine: descriptors and their checks (R295 to R302, R312, R313), units and tiles (R298 to
R303), the cut into transfers (R308), their issue (R309, R310, R314, R316) and their completion (R306, R323, R324). -/

namespace Sys2Proof.Machine

/-! ### The stream descriptor (R295) -/

/-- A stream descriptor as its 64 bytes. -/
structure SDesc where
  d : List Byte
  deriving DecidableEq, Repr

namespace SDesc
variable (x : SDesc)
/-- SRC. -/
def src : Nat := bfld x.d 0 8 51 0
/-- DST. -/
def dst : Nat := bfld x.d 8 8 51 0
/-- The word at 0x10. -/
def w10 : Nat := bfld x.d 0x10 4 31 0
/-- OP. -/
def op : Nat := fld x.w10 2 0
/-- SRCK. -/
def srck : Bool := bitN x.w10 4 = 1
/-- DSTK. -/
def dstk : Bool := bitN x.w10 5 = 1
/-- WDIST. -/
def wdist : Nat := fld x.w10 7 6
/-- ORGSIDE. -/
def orgside : Nat := bitN x.w10 8
/-- IDXDIM. -/
def idxdim : Nat := fld x.w10 11 9
/-- IDXW. -/
def idxw : Nat := fld x.w10 13 12
/-- DEPTH, with 0 read as 64. -/
def depth : Nat := if fld x.w10 19 14 = 0 then 64 else fld x.w10 19 14
/-- IDX_ADDR. -/
def idxAddr : Nat := bfld x.d 0x14 4 20 0
/-- NIDX. -/
def nidx : Nat := bfld x.d 0x18 4 31 0
/-- NT0. -/
def nt0 : Nat := bfld x.d 0x1C 2 15 0
/-- NT1. -/
def nt1 : Nat := bfld x.d 0x1E 2 15 0
/-- ORG0. -/
def org0 : Nat := bfld x.d 0x20 4 31 0
/-- ORG1. -/
def org1 : Nat := bfld x.d 0x24 4 31 0
/-- TILE0. -/
def tile0 : Nat := bfld x.d 0x28 2 15 0
/-- TILE1. -/
def tile1 : Nat := bfld x.d 0x2A 2 15 0
/-- SRACK. -/
def srack : Nat := bfld x.d 0x2C 2 1 0
/-- DRACK. -/
def drack : Nat := bfld x.d 0x2C 2 3 2
/-- CHAIN. -/
def chain : Nat := bfld x.d 0x2E 2 15 0
/-- MCAST. -/
def mcast : BitVec 128 := BitVec.ofNat 128 (leNat ((x.d.drop 0x30).take 16))
/-- A COPY or a WARM. -/
def tiled : Bool := x.op = 0 || x.op = 4
/-- A GATHER, SCATTER or SCATTER_ADD. -/
def indexed : Bool := x.op = 1 || x.op = 2 || x.op = 3

/-- Step 1 of R297: reserved bits and encodings, and the fields that the OP does not use (R296). -/
def step1 : Bool :=
  let idx := x.idxdim != 0 || x.idxw != 0 || x.idxAddr != 0 || x.nidx != 0
  let tiles := x.orgside != 0 || x.nt0 != 0 || x.nt1 != 0 || x.org0 != 0 || x.org1 != 0 || x.tile0 != 0 || x.tile1 != 0
  bfld x.d 0 8 63 52 != 0 || bfld x.d 8 8 63 52 != 0 || bitN x.w10 3 != 0 || fld x.w10 31 20 != 0 || bfld x.d 0x14 4 31 21 != 0 ||
    bfld x.d 0x2C 2 15 4 != 0 || decide (5 ≤ x.op) || x.wdist = 3 || x.idxw = 3 || decide (5 ≤ x.idxdim) ||
    (x.op = 0 && idx) ||
    (x.op = 1 && (x.srck || tiles || x.srack != 0)) ||
    ((x.op = 2 || x.op = 3) && (x.dstk || x.wdist != 0 || tiles || x.drack != 0 || x.mcast != 0)) ||
    (x.op = 4 && (x.dst != 0 || x.srck || x.dstk || x.wdist != 0 || x.orgside != 0 || idx || x.srack != 0 || x.drack != 0 || x.mcast != 0)) ||
    (!x.srck && x.srack != 0) || (!x.dstk && x.drack != 0) ||
    (x.op = 0 && ((x.orgside = 0 && x.srck) || (x.orgside = 1 && x.dstk))) ||
    (x.wdist = 2 && (!x.dstk || decide (1 < x.op))) || (x.wdist != 2 && x.mcast != 0)

/-- Step 2 of R297: alignment. -/
def step2 : Bool := x.src % 64 != 0 || x.dst % 64 != 0 || x.idxAddr % 2 ^ x.idxw != 0

/-- T0 and T1 of R298, over the tiled side. -/
def tile (t : TDesc) : Nat × Nat :=
  (if x.tile0 = 0 then t.size 0 else x.tile0, if x.tile1 = 0 then t.size 1 else x.tile1)

/-- The units of the stream (R298, R301). -/
def units : Nat := if x.tiled then x.nt0 * x.nt1 else x.nidx

/-- Step 6 of R297: the shapes of R299 and R302. -/
def shapesOk (src dst : TDesc) : Bool :=
  if x.op = 4 then true
  else if x.op = 0 then
    let (tl, pk, rack) := if x.orgside = 0 then (src, dst, x.dstk) else (dst, src, x.srck)
    let (t0, t1) := x.tile tl
    let n0 := if rack then t0 else x.nt0 * t0
    let n1 := if rack then t1 else x.nt1 * t1
    pk.size 0 = n0 && pk.size 1 = n1 && [2, 3, 4].all fun k => pk.size k = tl.size k
  else
    let (ix, ot, rack) := if x.op = 1 then (src, dst, x.dstk) else (dst, src, x.srck)
    TDesc.dims.all fun k => if k = x.idxdim then ot.size k = (if rack then 1 else x.nidx) else ot.size k = ix.size k

/-- The indices of the unit's elements on both sides; an absent one reads as 0 or is not written (R298 to R302).
`c`: the clamped index of an index stream, none into a dimension of SIZE 0. -/
def elements (src dst : TDesc) (u : Nat) (c : Option Nat) : List (Option (List Nat) × Option (List Nat)) :=
  let span (n : Nat) := List.range n
  if x.tiled then
    let (tl, rack) := if x.op = 4 || x.orgside = 0 then (src, x.dstk) else (dst, x.srck)
    let (t0, t1) := x.tile tl
    let a := u % x.nt0
    let b := u / x.nt0
    (span (tl.size 4)).flatMap fun i4 => (span (tl.size 3)).flatMap fun i3 => (span (tl.size 2)).flatMap fun i2 =>
      (span t1).flatMap fun j1 => (span t0).map fun j0 =>
        let i0 := x.org0 + a * t0 + j0
        let i1 := x.org1 + b * t1 + j1
        let big : Option (List Nat) := if i0 < tl.size 0 ∧ i1 < tl.size 1 then some [i0, i1, i2, i3, i4] else none
        let small : Option (List Nat) := some (if rack then [j0, j1, i2, i3, i4] else [a * t0 + j0, b * t1 + j1, i2, i3, i4])
        if x.op = 4 then (big, none) else if x.orgside = 0 then (big, small) else (small, big)
  else
    let (ix, rack) := if x.op = 1 then (src, x.dstk) else (dst, x.srck)
    let n (k : Nat) := if k = x.idxdim then 1 else ix.size k
    (span (n 4)).flatMap fun i4 => (span (n 3)).flatMap fun i3 => (span (n 2)).flatMap fun i2 =>
      (span (n 1)).flatMap fun i1 => (span (n 0)).map fun i0 =>
        let l := [i0, i1, i2, i3, i4]
        let big := c.map fun v => l.set x.idxdim v
        let small := some (l.set x.idxdim (if rack then 0 else u))
        if x.op = 1 then (big, small) else (small, big)

end SDesc

/-! ### Fetch and validation (R297, R312, R313) -/

/-- Another stream keeps a stream from coming into force: it holds a rack that the stream names, on the same side, and its SGO came
earlier, or it runs there already (R322). -/
def State.waitsBehind (s : State) (st : Stream) (racks : List (Bool × Nat × Nat)) : Bool :=
  s.benches.any fun e => e.2.streams.any fun o =>
    o.born != st.born && (decide (o.born < st.born) || o.desc.isSome) && o.holds.any racks.contains

/-- Fetch a tensor descriptor for a stream of bench `b`, with the entries of an owner table (R313, R272); the table comes before the
checks of step 3 of R297 (DESIGN CHOICE, log 114). -/
def State.fetchTd (s : State) (b p va : Nat) : State × Option TDesc × Bool :=
  match s.benchModule b with
  | none => (s, none, false)
  | some m =>
    match s.fenceRead m p b va 128 .read with
    | (s, .refused) => (s, none, false)
    | (s, .data d po) =>
      let t : TDesc := { d }
      if t.dist = 2 then
        match s.fenceRead m p b t.otAddr (8 * min t.otCount 4096) .read with
        | (s, .refused) => (s, none, false)
        | (s, .data e po2) => (s, some { d := d ++ e }, po || po2)
      else (s, some t, po)

/-- A bench that the fuses give and that has been retired (R496, R639). -/
def State.retired (s : State) (k : Nat) : Bool := bit (tget 0 s.dev.fuses (4 + k / 32)) (k % 32) && !s.usable k

/-- The usable benches of a partition's mask that a broadcast names (R297). -/
def State.liveTargets (s : State) (p : Nat) (m : BitVec 128) : List Nat :=
  (maskList m).filter fun k => (s.ten p).mask.getLsbD k && s.usable k

/-- Steps 4 to 8 of R297, in order: a failing status with its error code, 0 for none. A retired target gives status 4, though it has left
the mask (R327). -/
def State.checkStream (s : State) (b p : Nat) (x : SDesc) (src dst : TDesc) : Option (Nat × Nat) :=
  let v := s.bench b
  let bc : Bool := x.wdist = 2
  let dsts := if bc then s.liveTargets p x.mcast else [b]
  let rackTd (t : TDesc) : Bool := t.inDrawer && t.dist = 0
  let prod : BitVec 2 := if bc then 3 else 1
  let srcOk := !x.srck || ((v.rack x.srack).enable && (v.rack x.srack).cons = 1 && rackTd src)
  let dstOk := !x.dstk || ((dsts.all fun k => ((s.bench k).rack x.drack).enable && ((s.bench k).rack x.drack).prod = prod) && rackTd dst)
  let same := src.ty = dst.ty
  let typeOk : Bool :=
    if x.op = 4 then !src.inDrawer
    else if x.op = 3 then same && (tyAdd src.ty).isSome
    else if same then src.phi = dst.phi && src.plo = dst.plo else pairOk src.ty dst.ty
  let room (k r : Nat) (t : TDesc) : Bool := decide (t.rlo + t.rlen ≤ 2 ^ ((s.bench k).rack r).slotlog)
  if !srcOk || !dstOk then some (5, errRANGE)
  else if !typeOk then some (5, errTYPE)
  else if !x.shapesOk src dst then some (5, errSHAPE)
  else if (x.indexed && decide (0x1E0000 < x.idxAddr + x.nidx * 2 ^ x.idxw)) || (x.srck && !room b x.srack src) ||
      (x.dstk && !dsts.all fun k => room k x.drack dst) then some (5, errLENGTH)
  else if bc && (maskList x.mcast).any s.retired then some (4, 0)
  else if bc && x.mcast &&& ~~~(s.ten p).mask != 0 then some (2, 0)
  else if bc && (maskList x.mcast).any (fun k => !s.usable k) then some (4, 0)
  else none

/-- A stream fails validation: its tag completes with a status; status 5 is logged (R297). -/
def State.rejectStream (s : State) (b : Nat) (st : Stream) (addr status err : Nat) : State :=
  let s := if status = 5 then s.log (srcBench b) 0x11 st.part (w32 err) (w32 addr) (w32 st.tag) else s
  s.failStreams b status fun x => x.id = st.id

/-- The number of descriptors of a burst for a stream (R312). -/
def Stream.burstLen (st : Stream) : Nat := min 16 (if st.fresh then 16 else st.remain)
/-- The descriptors of a burst from drawer offset `a`: at most `n`, an empty one beyond the drawer (R312). -/
def Bench.burstAt (v : Bench) (a n : Nat) : List (List Byte) :=
  (List.range n).map fun i =>
    if a + 64 * i + 64 ≤ 0x200000 then v.drawer.getBytes (a + 64 * i) 64 else []
/-- What a stream has of its next descriptors: the rest of its burst, or a new one. -/
def Stream.ahead (st : Stream) (v : Bench) : List (List Byte) :=
  if st.burst.isEmpty then v.burstAt st.nextDesc st.burstLen else st.burst

/-- A descriptor of a stream runs: it is validated and, where it moves something, comes into force (R297, R263). -/
def State.runDescriptor (s : State) (b : Nat) (st : Stream) (addr : Nat) (d : List Byte) : State :=
  let x : SDesc := { d }
  if d.isEmpty then s.rejectStream b st addr 5 errRANGE
  -- A descriptor in bank 15 is a port B request without the secure flag (R350).
  else if 0x1E0000 < addr + 64 then s.rejectStream b st addr 2 0
  else if x.step1 then s.rejectStream b st addr 5 errRANGE
  else if x.step2 then s.rejectStream b st addr 5 errALIGN
  else
    let get (s : State) (va : Nat) : State × Option TDesc × Bool :=
      match st.prevTd.find? fun e => e.1 = va with
      | some e => (s, some { d := e.2 }, false)
      | none => s.fetchTd b st.part va
    let (s, ts, p1) := get s x.src
    let (s, td, p2) := if x.op = 4 then (s, ts, p1) else get s x.dst
    match ts, td with
    | some src, some dst =>
      if p1 || p2 || !src.useOk s.dev.epoch st.part || !dst.useOk s.dev.epoch st.part then s.rejectStream b st addr 5 errPART
      else match s.checkStream b st.part x src dst with
      | some (status, err) => s.rejectStream b st addr status err
      | none =>
        let nothing := x.units = 0 || (x.tiled && (src.count = 0 || dst.count = 0)) ||
          (x.op = 4 && (s.ten st.part).ways = 0)
        s.modStream b st.id fun st =>
          { st with
            desc := if nothing then none else some (d, src.d, dst.d), unit := 0, units := if nothing then 0 else x.units
            prevTd := if x.op = 4 then [(x.src, src.d)] else [(x.src, src.d), (x.dst, dst.d)]
            srcRack := if x.srck then some x.srack else none, dstRack := if x.dstk then some x.drack else none
            targets := if x.dstk then (if x.wdist = 2 then maskList x.mcast else [b]) else [] }
    | _, _ => s.rejectStream b st addr (if (s.benchModule b).isNone then 4 else 3) 0

/-- A stream can take its next descriptor: none is in force, and no other stream keeps it from its racks. -/
def State.mayFetch (s : State) (b : Nat) (st : Stream) : Bool :=
  st.desc.isNone && !st.stopped && (st.fresh || st.remain != 0) && !s.wipeHolds st.nextDesc 64 &&
    !s.waitsBehind st (racksOf b ((st.ahead (s.bench b)).headD []) ++ (if st.fresh then st.holds else []))

/-- A burst of descriptors is read: its errors are reported, and its cycles are charged to Remote (R285, R312). -/
def State.readBurst (s : State) (b : Nat) (st : Stream) : State :=
  if !st.burst.isEmpty then s
  else
    let n := st.burstLen
    (s.eccReports b ((s.bench b).eccIn siteDrawer st.nextDesc (min (64 * n) (0x200000 - st.nextDesc)))).modBench b fun v => v.charge .remote n

/-- DESCRIPTOR_FETCH (R312): the oldest stream that can take its next descriptor does, from its burst or from a new one of 16. -/
def execDescriptorFetch (b : Bench7) (s : State) : Out :=
  let k := b.toNat
  .next (if !(s.alive && s.usable k) then s else
    match (s.bench k).streams.find? (s.mayFetch k) with
    | none => s
    | some st =>
      match st.ahead (s.bench k) with
      | [] => s
      | d :: rest =>
        let a := st.nextDesc
        let bad := eccBad ((s.bench k).eccIn siteDrawer a 64)
        let chain := if st.fresh then (SDesc.mk d).chain else st.remain - 1
        let st' := { st with fresh := false, remain := chain, burst := rest.take chain, nextDesc := a + 64
                             holds := st.holds ++ racksOf k d, poison := st.poison || bad }
        let s := (s.readBurst k st).modStream k st.id fun _ => st'
        (s.runDescriptor k st' a d).streamOver k st.id)

/-! ### Units (R298 to R304, R314, R316) -/

/-- The limits on the start of a unit: its slots (R292, R314, R316) at every target. -/
def State.slotsReady (s : State) (b : Nat) (st : Stream) : Bool :=
  (match st.srcRack with
    | none => true
    | some r => ((s.bench b).rack r).ready != 0) &&
  (match st.dstRack with
    | none => true
    | some r => st.targets.all fun k =>
        let q := (s.bench k).rack r
        q.freeSlots != 0 && (q.cons != 0 || decide ((q.res - q.acq).toNat < 4)))

/-- Pieces of a same-type run, cut at the limits of R308. -/
def cutCopy : Nat → Nat → Option BitPlace → Option BitPlace → Nat → List Piece
  | 0, _, _, _, _ => []
  | fuel + 1, u, src, dst, bits =>
    if bits = 0 then [] else
      let room (p : Option BitPlace) : Nat := match p with | some p => p.room | none => bits
      let k := min bits (min (room src) (room dst))
      .copy u src dst k :: cutCopy fuel u (src.map fun p => p.add k) (dst.map fun p => p.add k) (bits - k)

/-- A pair of spots that a same-type stream copies. -/
abbrev CopySpot := Option BitPlace × Option BitPlace × Nat

/-- Order of copy spots: by source, or by destination where there is none. -/
def copyKey (c : CopySpot) : (Nat × Nat × Nat) × Nat :=
  match c.1, c.2.1 with | some p, _ => p.key | none, some p => ((9, p.key.1.2.1, p.key.1.2.2), p.key.2) | none, none => ((10, 0, 0), 0)

/-- Insert a copy spot in order. -/
def insertCopy (x : CopySpot) : List CopySpot → List CopySpot
  | [] => [x]
  | y :: t => if keyLt (copyKey x) (copyKey y) then x :: y :: t else y :: insertCopy x t

/-- Join copy spots that are contiguous on both sides. -/
def joinCopies (l : List CopySpot) : List CopySpot :=
  let next (a b : Option BitPlace) (n : Nat) : Bool := match a, b with
    | some p, some q => p.follows q n | none, none => true | _, _ => false
  ((l.foldl (fun acc x => insertCopy x acc) []).foldl (fun (acc : List CopySpot) x =>
    match acc with
    | (s, d, n) :: rest => if next s x.1 n && next d x.2.1 n then (s, d, n + x.2.2) :: rest else x :: acc
    | [] => [x]) []).reverse

/-- Pieces of a unit of one type on both sides: each covered plane and the scales are cut separately (R253, R255, R300, R308). -/
def copyPieces (u : Nat) (t d : TySel) (els : List (Option ELoc × Option ELoc)) : List Piece :=
  let shift (t : TySel) (j : Nat) (e : ELoc) : BitPlace := { e.at_ with place := e.at_.place.add (t.pstride * j) }
  let plane (j : Nat) : List CopySpot := els.filterMap fun (e : Option ELoc × Option ELoc) => match e.2 with
    | some y => some (e.1.map (shift t j), some (shift d j y), tyUnit t.ty)
    | none => none
  let scales : List CopySpot := (els.filterMap fun (e : Option ELoc × Option ELoc) => match e.2 with
    | some y => y.scale.map fun q =>
        (((e.1.bind fun x => x.scale).map fun p => ({ place := p, bit := 0 } : BitPlace)), some ({ place := q, bit := 0 } : BitPlace), 8)
    | none => none).eraseDups
  ((d.planes.map plane ++ [scales]).flatMap joinCopies).flatMap fun c => cutCopy (c.2.2 / 256 + 8) u c.1 c.2.1 c.2.2

/-- Insert an element pair in order of its place on the cut side. -/
def insertPair (dstSide : Bool) (x : Option ELoc × Option ELoc) : List (Option ELoc × Option ELoc) → List (Option ELoc × Option ELoc)
  | [] => [x]
  | y :: t =>
    let key (e : Option ELoc × Option ELoc) : (Nat × Nat × Nat) × Nat :=
      match (if dstSide then e.2 else e.1) with | some p => p.at_.key | none => ((9, 0, 0), 0)
    if keyLt (key x) (key y) then x :: y :: t else y :: insertPair dstSide x t

/-- Whether an element extends a run that began at `start` and ended at `prev`, within the limits of R308. -/
def extendsRun (w : Nat) (start prev cur : Option ELoc) : Bool :=
  match start, prev, cur with
  | some a, some p, some c => p.at_.follows c.at_ w && decide (c.at_.key.2 + w ≤ a.at_.key.2 + a.at_.room)
  | none, none, none => true
  | _, _, _ => false

/-- A pair of elements of the two sides of a stream. -/
abbrev ElPair := Option ELoc × Option ELoc

/-- Whether elements that follow the run from `start` to `prev` extend it, one after another. -/
def extendsBy (w : Nat) (start : Option ELoc) : Option ELoc → List (Option ELoc) → Bool
  | _, [] => true
  | prev, e :: es => extendsRun w start prev e && extendsBy w start e es

/-- Groups of elements that each form one run of the side `side`, and whose runs of the side `far` break no limit (R308). An atom is a
list of elements that one transfer takes together. -/
def groupAtoms (side far : ElPair → Option ELoc) (w fw : Nat) (atoms : List (List ElPair)) : List (List ElPair) :=
  ((atoms.foldl (fun (acc : List (List ElPair × Option ELoc)) a =>
    match acc, a with
    | _, [] => acc
    | [], e :: _ => [(a, far e)]
    | (g, ostart) :: rest, e :: _ =>
      let p := g.getLast?
      let run := extendsBy w (g.head?.bind side) (p.bind side) (a.map side)
      let cont := match p.bind far, far e with | some x, some c => x.at_.follows c.at_ fw | _, _ => false
      let breaks := cont && match ostart, (a.getLast?.bind far) with
        | some x, some c => decide (x.at_.key.2 + x.at_.room < c.at_.key.2 + fw) | _, _ => false
      if run && !breaks then (g ++ a, if cont then ostart else far e) :: rest else (a, far e) :: acc) []).map (·.1)).reverse

/-- The elements of one block of an MX destination, whose scale they share, go together (R253, R275). -/
def mxAtoms (l : List ElPair) : List (List ElPair) :=
  let scale (e : ElPair) : Option Place := e.2.bind fun x => x.scale
  (l.map scale).eraseDups.map fun p => l.filter fun e => scale e = p

/-- Pieces of a converting stream: sets of elements whose cut side, the one with more bytes or else the destination, is one contiguous
run, in ascending order of address (R308). -/
def convPieces (u : Nat) (s d : TySel) (els : List ElPair) : List Piece :=
  let dstSide := decide (tyBits s.ty ≤ tyBits d.ty)
  let side (e : ElPair) : Option ELoc := if dstSide then e.2 else e.1
  let far (e : ElPair) : Option ELoc := if dstSide then e.1 else e.2
  let sorted := (els.filter fun e => e.2.isSome).foldl (fun acc x => insertPair dstSide x acc) []
  let atoms := if tyMx d.ty then mxAtoms sorted else sorted.map fun e => [e]
  (groupAtoms side far (tyUnit (if dstSide then d.ty else s.ty)) (tyUnit (if dstSide then s.ty else d.ty)) atoms).map fun g => .conv u s d none g

/-- Pieces of a unit of SCATTER_ADD, in element order: each one run, contiguous on both sides (R308, R240). -/
def addPieces (u : Nat) (s d : TySel) (add : Option AccTy) (els : List ElPair) : List Piece :=
  let w := tyUnit d.ty
  let groups := (els.filter fun e => e.2.isSome).foldl (fun (acc : List (List ElPair)) e =>
    match acc with
    | [] => [[e]]
    | g :: rest =>
      let joins (f : ElPair → Option ELoc) := extendsRun w (g.head?.bind f) (g.getLast?.bind f) (f e)
      if joins (·.1) && joins (·.2) then (g ++ [e]) :: rest else [e] :: acc) []
  groups.reverse.map fun g => .conv u s d add g

/-- Pieces of a WARM unit: every byte of host memory that its window covers (R315). -/
def warmPieces (u : Nat) (s : TySel) (els : List (Option ELoc × Option ELoc)) : List Piece :=
  (joinSpots (els.flatMap fun e => match e.1 with | some x => s.spots x | none => [])).filterMap fun r =>
    match r.place with | .host va => some (.warm u va r.n) | _ => none

/-- The index of unit `u` of an index stream, read from the drawer (R301, R303). -/
def Bench.indexAt (v : Bench) (x : SDesc) (u : Nat) : Nat :=
  leNat (v.drawer.getBytes (x.idxAddr + u * 2 ^ x.idxw) (2 ^ x.idxw))

/-- Start the next unit of a stream: its slots are taken and reserved, its index applied, and its pieces cut. -/
def State.startUnit (s : State) (b : Nat) (st : Stream) (x : SDesc) (src dst : TDesc) : State :=
  let u := st.unit
  let v := s.bench b
  let me := s.dev.id.toNat
  let iw := if x.indexed then v.eccIn siteDrawer (x.idxAddr + u * 2 ^ x.idxw) (2 ^ x.idxw) else []
  let s := s.eccReports b iw
  -- An index read takes a port B cycle of Remote (R285).
  let s := if x.indexed then s.modBench b fun v => v.charge .remote 1 else s
  let ix := if x.op = 1 then src else dst
  let n := ix.size x.idxdim
  let i := if x.indexed then v.indexAt x u else 0
  let clamps := x.indexed && decide (n ≤ i)
  let s := if clamps then s.oobAdd st.part 1 else s
  let c : Option Nat := if n = 0 then none else some (if i < n then i else n - 1)
  -- The source slot is taken (R292).
  let sr := match st.srcRack with
    | some r => let q := v.rack r; some (r, q.acq.toNat, q.addr q.acq.toNat, tget false q.poison (q.idx q.acq.toNat))
    | none => none
  let s := match sr with
    | some (r, _, _, _) => s.modRack b r fun q => { q with acq := q.acq + 1 }
    | none => s
  -- A destination slot is reserved at every target (R316).
  let ds := match st.dstRack with
    | some r => st.targets.map fun k => (k, ((s.bench k).rack r).res.toNat, u)
    | none => []
  let s := match st.dstRack with
    | some r => st.targets.foldl (fun (s : State) k => s.modRack k r fun q => { q with res := q.res + 1 }) s
    | none => s
  let els := (x.elements src dst u c).map fun e =>
    (e.1.map fun i => src.place me (sr.map fun z => .drawer b z.2.2.1) i,
     e.2.map fun i => dst.place me (st.dstRack.map fun _ => .dslot 0) i)
  let work :=
    if x.op = 4 then warmPieces u src.sel els
    else if x.op = 3 then addPieces u src.sel dst.sel (tyAdd src.ty) els
    else if src.ty = dst.ty then copyPieces u src.sel dst.sel els
    else convPieces u src.sel dst.sel els
  let bad := (match sr with | some z => z.2.2.2 | none => false) || eccBad iw
  s.modStream b st.id fun st =>
    { st with
      unit := u + 1, work, slots := st.slots ++ ds
      taken := st.taken ++ (match sr with | some z => [(z.2.1, u)] | none => [])
      poison := st.poison || bad, poisoned := if bad then st.poisoned ++ [u] else st.poisoned }

/-! ### Issue (R309, R310) -/

/-- L of R309 for a stream of bench `b`: DEPTH, lowered to the QDEPTH of its source rack and of its destination rack at every target. -/
def State.inFlight (s : State) (b : Nat) (st : Stream) (x : SDesc) : Nat :=
  let src := match st.srcRack with | some r => ((s.bench b).rack r).depth | none => 64
  let dst := match st.dstRack with | some r => (st.targets.map fun k => ((s.bench k).rack r).depth).foldl min 64 | none => 64
  min x.depth (min src dst)

/-- A bit place of host memory. -/
def BitPlace.isHost (p : BitPlace) : Bool := match p.place with | .host _ => true | _ => false

/-- The class of port B cycles that a piece waits for (R285): of a SCATTER_ADD into host memory, that of its reads. -/
def Piece.splitClass : Piece → SplitClass
  | .copy _ s d _ => if s.any BitPlace.isHost then .hostRead else if d.any BitPlace.isHost then .hostWrite else .remote
  | .conv _ _ _ a els =>
    if els.any fun e => e.1.any fun x => x.at_.isHost then .hostRead
    else if els.any fun e => e.2.any fun x => x.at_.isHost then (if a.isSome then .hostRead else .hostWrite) else .remote
  | .warm .. => .hostRead

/-- The runs that a piece reads and writes; a destination slot is written at every target (R308, R316). -/
def State.runsOf (s : State) (st : Stream) (p : Piece) : List Run × List Run :=
  let spread (r : Run) : List Run := match r.place with
    | .dslot off => match st.dstRack with
      | some k => (st.slots.filter fun z => z.2.2 = p.unit).map fun z =>
          { r with place := .drawer z.1 (((s.bench z.1).rack k).addr z.2.1 + off) }
      | none => [r]
    | _ => [r]
  let rmw (ws : List Run) (add : Bool) : List Run := ws.filter fun r => match r.place with
    | .drawer .. => false | .host _ => r.partBits || add | _ => r.partBits && !add
  match p with
  | .copy _ src dst bits =>
    let ws := (match dst with | some d => [runOf d bits] | none => []).flatMap spread
    ((match src with | some a => [runOf a bits] | none => []) ++ rmw ws false, ws)
  | .conv _ a d add els =>
    let rs := joinSpots (els.flatMap fun e => match e.1 with | some x => a.spots x | none => [])
    let ws := (joinSpots (els.flatMap fun e => match e.2 with | some x => d.spots x | none => [])).flatMap spread
    (rs ++ rmw ws add.isSome, ws)
  | .warm _ va n => ([{ place := .host va, n }], [])

/-- Translate the host runs of a transfer; every page is checked before anything moves (R459, R464). -/
def State.translateRuns (s : State) (b p : Nat) (k : Access) (l : List Run) : State × List Run × Nat :=
  l.foldl (fun (acc : State × List Run × Nat) r =>
    let (s, rs, bad) := acc
    if bad != 0 then (s, rs ++ [r], bad) else
      match r.place with
      | .host va =>
        match s.benchModule b with
        | none => (s, rs ++ [r], 4)
        | some m =>
          let (s, x) := s.translate m p va k
          match x with
          | .fault f => (s.fenceFault p b f (accessCode k f) va, rs ++ [r], 3)
          | .ok pa => (s, rs ++ [{ r with pa }], 0)
      | _ => (s, rs ++ [r], 0)) (s, [], 0)

/-- The 64-byte rows that a run touches. -/
def Run.rows (r : Run) : Nat := let o := r.place.key.2; (o + r.n + 63) / 64 - o / 64

/-- The port B cycles of a transfer, by class (R285, R311): one per row of the bench's drawer; a SCATTER_ADD into host memory is charged
host read for its reads and host write for its writes. -/
def splitCost (b : Nat) (p : Piece) (add : Bool) (rs ws : List Run) : List (SplitClass × Nat) :=
  let own (r : Run) : Bool := match r.place with | .drawer k _ => decide (k = b) | _ => false
  let host (r : Run) : Bool := match r.place with | .host _ => true | _ => false
  let sum (l : List Run) : Nat := (l.map Run.rows).sum
  if add && ws.any host then [(.hostRead, sum rs), (.hostWrite, sum ws)]
  else [(p.splitClass, sum ((rs ++ ws).filter own))]

/-- Energy of a converting stream, counted on the side that moves more bytes, where a side is host memory (R276, R605; DESIGN CHOICE,
log 126). -/
def convBytes (p : Piece) (rs ws : List Run) : Nat :=
  let host (r : Run) : Bool := match r.place with | .host _ => true | _ => false
  match p with
  | .conv _ _ _ none _ => if (rs ++ ws).any host then max (rs.map (·.n)).sum (ws.map (·.n)).sum else 0
  | _ => 0

/-- Issue the next piece of a stream as a transfer (R308, R310); the bench has a free tag, or the stream's own. -/
def State.issuePiece (s : State) (b : Nat) (st : Stream) (x : SDesc) (p : Piece) (rest : List Piece) : State :=
  let v := s.bench b
  let got : Option (Nat × Bench) := if st.tagUsed then v.allocTag st.part st.cmd else some (st.tag, v)
  match got with
  | none => s
  | some (t, v) =>
    let s := s.setBench b v
    let s := s.modStream b st.id fun st => { st with work := rest, tagUsed := true }
    let (rs, ws) := s.runsOf st p
    let add : Bool := match p with | .conv _ _ _ a _ => a.isSome | _ => false
    let hostDst : Bool := ws.any fun r => match r.place with | .host _ => true | _ => false
    let (s, rs, e1) := s.translateRuns b st.part (if add && hostDst then .update else .read) rs
    let (s, ws, e2) := if e1 = 0 then s.translateRuns b st.part (if add then .update else .write) ws else (s, ws, e1)
    let s := s.modBench b fun v =>
      { (splitCost b p add rs ws).foldl (fun v c => v.charge c.1 c.2) v with lastIssued := st.id }
    let s := if convBytes p rs ws = 0 then s else s.hppEnergy st.part (convBytes p rs ws)
    s.startXfer b
      { tag := t, order := 0, born := s.now, stream := some st.id, piece := some p, part := st.part, cmd := st.cmd, secure := st.secure
        reads := rs, writes := ws, status := e2, cached := x.op = 4 || x.wdist != 0, mcast := x.wdist = 2
        poison := st.poisoned.contains p.unit }

/-- Start units of a stream until it has a piece to issue; a unit that moves nothing closes at once. -/
def State.readyWork (s : State) (b id : Nat) : Nat → State
  | 0 => s
  | fuel + 1 =>
    match (s.bench b).stream? id with
    | none => s
    | some st => match st.desc with
      | none => s
      | some (d, a, c) =>
        if !st.work.isEmpty || st.stopped then s
        else if st.unit = st.units then s.closeUnits b id
        else if s.slotsReady b st then
          let s := s.startUnit b st { d } { d := a } { d := c }
          match (s.bench b).stream? id with
          | some st' => if st'.work.isEmpty then State.readyWork (s.closeUnits b id) b id fuel else s
          | none => s
        else s

/-- Whether a stream of bench `b` can issue a transfer now, but for a cycle of its class (R309, R310). -/
def State.canIssue (s : State) (b : Nat) (st : Stream) : Bool :=
  match st.desc with
  | none => false
  | some (d, _, _) =>
    !st.stopped && !st.work.isEmpty && (!st.tagUsed || !(s.bench b).tags.free.isEmpty) &&
      decide (((s.bench b).xfers.filter fun y => y.stream = some st.id).length < s.inFlight b st { d })

/-- The class that the next transfer of a stream waits for. -/
def Stream.nextClass (st : Stream) : SplitClass := match st.work with | p :: _ => p.splitClass | [] => .remote

/-- TRANSFER_ISSUE (R310): the engine issues one transfer, of the next stream in turn that has a cycle of its class (R56). Where every
stream that could issue waits for a later round, the rounds up to the first of them pass (DESIGN CHOICE, log 123). -/
def execTransferIssue (b : Bench7) (s : State) : Out :=
  let k := b.toNat
  .next (if !(s.alive && s.usable k) then s else
    let pre := (s.ten (s.actsFor k)).presetActive
    let ids := (s.bench k).streams.map (·.id)
    let s := ids.foldl (fun s id => s.readyWork k id 65536) s
    let s := ids.foldl (fun s id => s.streamOver k id) s
    let s := s.modBench k fun v => v.rounds pre ((s.col (colOf k)).cyc / 100 - v.round)
    let v := s.bench k
    let turn := (v.streams.filter (fun st => v.lastIssued < st.id) ++ v.streams.filter fun st => st.id ≤ v.lastIssued).filter (s.canIssue k)
    let waits := (turn.map fun st => v.roundsFor pre st.nextClass).foldl min 1000000
    let s := if turn.isEmpty then s else s.modBench k fun v => v.rounds pre waits
    match turn.find? fun st => (s.bench k).roundsFor pre st.nextClass = 0 with
    | none => s
    | some st => match st.desc, st.work with
      | some (d, _, _), p :: rest =>
        let s := s.issuePiece k st { d } p rest
        s.readyWork k st.id 1
      | _, _ => s)

/-! ### Completion (R306, R323, R324) -/

/-- A transfer of a stream has completed: its tag is free unless it is the stream's own, and the stream notes a failure
or poison (R323, R324). -/
def State.finishStreamXfer (s : State) (b : Nat) (x : Xfer) (id : Nat) : State :=
  let s := s.modBench b fun v => { v with xfers := v.xfers.filter fun y => y.tag ≠ x.tag }
  let u := x.unit
  let own : Bool := match (s.bench b).stream? id with | some st => st.tag = x.tag | none => false
  let s := if own then s else s.completeTag b x.tag x.status false
  let s := s.modStream b id fun st =>
    let st := if x.status = 1 || x.poison then { st with poison := true, poisoned := if st.poisoned.contains u then st.poisoned else st.poisoned ++ [u] } else st
    if 2 ≤ x.status then st.failAt u x.status else st
  s.streamOver b id

/-- A message has completed: a piece reports to its message, whose own tag completes when every piece has (R418). -/
def State.finishMsg (s : State) (b : Nat) (x : Xfer) : State :=
  match x.parent with
  | some p =>
    let s := s.modBench b fun v => { v with xfers := v.xfers.filter fun y => y.tag ≠ x.tag }
    let s := s.modXfer b p fun y =>
      { y with
        poison := y.poison || x.status = 1
        worst := if x.status < 2 then y.worst else match y.worst with
          | some w => if x.pno < w.1 then some (x.pno, x.status) else some w
          | none => some (x.pno, x.status) }
    s.completeTag b x.tag x.status false
  | none =>
    let v := s.bench b
    if (v.xfers ++ v.msgQ).any fun y => y.parent = some x.tag then s
    else
      let status := if 2 ≤ x.status then x.status else match x.worst with | some w => w.2 | none => if x.poison then 1 else x.status
      let s := s.modBench b fun v => { v with xfers := v.xfers.filter fun y => y.tag ≠ x.tag }
      s.completeTag b x.tag status (status = 1)

/-- TRANSFER_COMPLETE (R306): the transfer under a tag, all of its bytes moved, completes. -/
def execTransferComplete (b : Bench7) (tag : BitVec 6) (s : State) : Out :=
  let k := b.toNat
  .next (if !s.alive then s else
    match (s.bench k).xfer? tag.toNat with
    | none => s
    | some x =>
      if x.stage != .complete then s else
        let s := match x.stream with
          | some id => s.finishStreamXfer k x id
          | none => s.finishMsg k x
        State.pumpMsgs k 64 (s.advance k))

end Sys2Proof.Machine
end

