-- ==== Sys2Proof/Machine/Serve.lean ====
section
/-! DEFINITION. Requests of other devices on chip (R377, R378, R383, R386): what a Molarga port checks of an arriving request (R434), the
credits that it takes for the answer, its request on REQ VN1, what the target answers, and the response that leaves (R419, R576, R577,
R581). -/

namespace Sys2Proof.Machine

/-- Whether a request holds a value in a field that R417 keeps at 0, by its MOP (R434). -/
def OutMsg.reserved (m : OutMsg) : Bool :=
  wfld m.w0 31 28 != 0 ||
  (if m.mop = 3 then decide (6 ≤ wfld m.w0 7 4) else wfld m.w0 7 4 != 0) ||
  match m.mop with
  | 0 => m.w2 != 0 || wfld m.w3 31 24 != 0
  | 1 => wfld m.w3 31 24 != 0
  | 3 => m.w2 != 0 || wfld m.w3 31 24 != 0
  | 4 => m.w1 != 0
  | 5 => wfld m.w1 31 8 != 0 || [3, 5, 6, 7].contains (wfld m.w1 7 5) || m.w3 != 0
  | _ => true

/-- The bench that a message names. -/
def OutMsg.bench (m : OutMsg) : Nat := wfld m.w0 14 8
/-- The bytes that a message names. -/
def OutMsg.len (m : OutMsg) : Nat := wfld m.w3 23 0
/-- A message that names a range of a drawer. -/
def OutMsg.ranged (m : OutMsg) : Bool := decide (m.mop < 2) || m.mop = 3

/-- The port refuses a request for its form (R434): status 5. -/
def OutMsg.malformed (m : OutMsg) : Bool := m.reserved || (m.ranged && m.len != 0 && decide (0x200000 < m.w1.toNat + m.len))

/-- The check of a bench endpoint (R399, R327, R350, R434): a refusing status, or none. -/
def State.refusal (s : State) (p k off n : Nat) (secure : Bool) : Option Nat :=
  if !s.usable k then some 4
  else if !(s.ten p).mask.getLsbD k then some 2
  else if n ≠ 0 ∧ 0x1E0000 < off + n ∧ !secure then some 2
  else none

/-- Change the requests that port `p` serves. -/
def State.modServed (s : State) (p num : Nat) (f : Served → Served) : State :=
  s.modPort p fun q => { q with serving := q.serving.map fun v => if v.num = num then f v else v }
/-- The request that port `p` serves under a number. -/
def State.served? (s : State) (p num : Nat) : Option Served := (s.port p).serving.find? fun v => v.num = num

/-- The flits of the answer to a request (R386, R417): those of the data of a GET, one of an ACK. -/
def OutMsg.answerFlits (m : OutMsg) : Nat := if m.mop = 1 then min 256 (1 + (m.len - 224 + 239) / 240) else 1

/-- The message by which a port asks its target on chip: a write, a read, or an operation (R383). -/
def OutMsg.body (m : OutMsg) (o : Ask) : Body :=
  if m.mop = 1 then .read o else if m.mop = 0 ∨ m.mop = 3 then .write o else .op o

/-- A message has left the buffer of its input port (R415). -/
def State.took (s : State) (p : Nat) (m : OutMsg) : State :=
  match m.inVc with | some v => s.unbuffer p v (msgPayloads m).length | none => s

/-- Port `p` injects a request on REQ VN1 once it holds the credits for its whole answer; until then it waits (R386). The answer to a
device that no port leads to is dropped, so it needs none. -/
def State.serve (s : State) (p : Nat) (m : OutMsg) : State :=
  let me := s.dev.id.toNat
  if m.malformed then (s.took p m).emit (ackOf m me 5)
  else
    let go (s : State) (out vc paid : Nat) : State :=
      let s := s.took p m
      let num := (s.port p).nextServe
      let o : Ask := { who := .port p, tag := num, write := m.mop = 0 || m.mop = 3 }
      (s.modPort p fun q => { q with serving := q.serving ++ [{ num, msg := m, out, vc, paid }], nextServe := num + 1 }).inject .req
        (.port p) [if m.mop = 5 then .foreman else .bench m.bench] 1 m.part false (m.body o)
    match s.nextHop (m.src.getD me) me with
    | none => go s p 2 0
    | some (k, plus, out) =>
      let vc := s.hopVc k plus out true false
      let n := m.answerFlits
      if tget 0 (s.port out).used vc + n ≤ 256 then
        go (s.modPort out fun q => { q with used := tset 0 q.used vc (tget 0 q.used vc + n) }) out vc n
      else s.modPort p fun q => { q with waiting := q.waiting ++ [m] }

/-- Requests that wait for credits try again, in order. -/
def State.serveWaiting (s : State) : State :=
  allPorts.foldl (fun (s : State) p =>
    match (s.port p).waiting with
    | [] => s
    | l => l.foldl (fun (s : State) m => s.serve p m) (s.modPort p fun q => { q with waiting := [] })) s

/-- The answer to a request that port `p` has served leaves: over the channel whose credits it took, or, where its way has changed since,
like any other message; credits that it does not need return (R386, R419). -/
def State.answer (s : State) (v : Served) (m : OutMsg) : State :=
  let me := s.dev.id.toNat
  let s := s.modPort v.out fun q => { q with used := tset 0 q.used v.vc (tget 0 q.used v.vc - v.paid) }
  match s.nextHop m.dev (m.src.getD me) with
  | none => s
  | some (k, plus, out) =>
    let vc := s.hopVc k plus out true false
    let fs := msgFlits me m vc
    if 0 < v.paid ∧ out = v.out ∧ vc = v.vc then
      let s := s.modPort out fun q => { q with used := tset 0 q.used vc (tget 0 q.used vc + fs.length) }
      fs.foldl (fun (s : State) f => s.putFlit out { f with paid := true }) s
    else fs.foldl (fun (s : State) f => s.putFlit out f) s

/-- A served request is over: its response leaves, for a GET with its data (R419). -/
def State.endServed (s : State) (p : Nat) (v : Served) (status : Nat) : State :=
  let me := s.dev.id.toNat
  let s := s.modPort p fun q => { q with serving := q.serving.filter fun u => u.num ≠ v.num }
  let m := v.msg
  if m.mop = 1 ∧ status < 2 then
    s.answer v { mop := 2, dev := m.src.getD me, part := m.part, w0 := wput m.w0 3 0 2, w1 := m.w2, w2 := 0, w3 := w32 m.len
                 data := v.data.getD [], poison := v.poison, src := some me }
  else s.answer v (ackOf m me status)

/-- A served GET ends once its data and its end have come. -/
def State.checkServed (s : State) (p num : Nat) : State :=
  match s.served? p num with
  | some v => if v.told && v.data.isSome then s.endServed p v 0 else s
  | none => s

/-- A remote DWAIT (R577): its status. -/
def State.farWait (s : State) (p i dev bench : Nat) : State × Nat :=
  if 16 ≤ (s.ten p).remote.length then (s, 5)
  else (s.modTen p fun t => { t with remote := t.remote ++ [(dev, bench, i)] }, 0)

/-- The target carries out a POST or a DOWEL message (R576, R577, R581): its status, and the test that follows a DWAIT. -/
def State.servedOp (s : State) (m : OutMsg) : State × Nat × Option Nat :=
  let src := m.src.getD s.dev.id.toNat
  let sb := wfld m.w0 21 15
  if m.mop = 4 then
    let (s, st) := s.postTo m.bench (BitVec.ofNat 12 src) (BitVec.ofNat 7 sb) m.w2 m.w3 true
    (s, st, none)
  else
    let i := wfld m.w1 4 0
    match wfld m.w1 7 5 with
    | 0 => (s.dowelAdd m.part i m.w2, 0, none)
    | 1 => (s.dowelTarget m.part i m.w2, 0, none)
    | 2 => let (s, st) := s.farWait m.part i src sb; (s, st, some i)
    | _ => (s.dowelClear m.part i, 0, none)

end Sys2Proof.Machine
end

