-- ==== Sys2Proof/Machine/NocOps.lean ====
section
/-! DEFINITION. The commands of the network on chip: permanent link faults (R634, R638), and what each endpoint does with a packet that
reaches it (R383 to R387, R399 to R403). A command for a packet that other traffic still holds back changes nothing (R390, R391). -/

namespace Sys2Proof.Machine

/-! ### Dead links -/

/-- The packet that stands for traffic from one endpoint to another, for its way. -/
def wayOf (a b : Endp) : Pkt := { uid := 0, src := a, dst := [b], part := 0, body := .snoop 0 }

/-- The links between bench `b` and an edge endpoint, both ways (R638). -/
def benchWays (mesh : NocMesh) (b : Nat) (e : Endp) : List NocLink :=
  ((wayOf (.bench b) e).tree ++ (wayOf e (.bench b)).tree).filterMap (stepLink mesh)

/-- A link is declared permanently faulty: its spare wire is mapped, or it is dead, and the benches that it cuts from their module or from
the Foreman are retired (R634, R638). -/
def State.linkBad (s : State) (l : NocLink) : State :=
  let ev (s : State) (code fault : Nat) : State :=
    s.logAll srcForeman code (w32 (meshCode l.mesh)) (w32 l.router.toNat) (w32 l.dir.toNat) fault
  if s.noc.dead.contains l then s
  else if s.noc.spares.contains l then
    let s := ev { s with noc := { s.noc with dead := s.noc.dead ++ [l] } } 0x85 0x20
    (allBenches.filter fun b =>
      (benchWays l.mesh b (.hpp (colOf b / 4))).contains l || (benchWays l.mesh b .foreman).contains l).foldl (fun s b => s.retire b 5) s
  else ev { s with noc := { s.noc with spares := s.noc.spares ++ [l] } } 0x84 0

/-- A link that the command names as permanently faulty, if any. -/
def State.linkBad? (s : State) : Option NocLink → State
  | none => s
  | some l => s.linkBad l

/-! ### Landings and retries (R384, R400, R402, R403) -/

/-- What packets act for, whichever attempt. -/
def Ask.base (o : Ask) : Ask := { o with tries := 0 }

/-- A target reserves a landing for a write; it has one for each (R384). -/
def State.reserve (s : State) (e : Endp) (o : Ask) (part : Nat) : State :=
  if s.noc.landings.any fun l => l.1 = e && l.2.1 = o.base then s
  else { s with noc := { s.noc with landings := s.noc.landings ++ [(e, o.base, part)] } }
/-- A landing reserved for a write of a partition. -/
def State.reserved (s : State) (e : Endp) (o : Ask) (part : Nat) : Bool := s.noc.landings.contains (e, o.base, part)
/-- The landing of a write is free again. -/
def State.unreserve (s : State) (e : Endp) (o : Ask) : State :=
  { s with noc := { s.noc with landings := s.noc.landings.filter fun l => !(l.1 = e && l.2.1 = o.base) } }

/-- What a packet acts for. -/
def Body.ask : Body → Option Ask
  | .read o | .write o | .op o | .look o | .miss o | .grant o | .done o _ | .data o _ _ | .wdata o | .fill o _ _ | .mdata o => some o
  | _ => none

/-- A packet of a run is on chip. -/
def State.onChip (s : State) (o : Ask) : Bool := meshes.any fun mesh => (s.noc.of mesh).any fun p => p.body.ask = some o

/-- The packets of a run leave the meshes with their flits: it is tried again. -/
def State.dropPackets (s : State) (o : Ask) : State :=
  meshes.foldl (fun (s : State) mesh =>
    ((s.noc.of mesh).filter fun p => p.body.ask = some o).foldl (fun (s : State) p => { s with noc := s.noc.reached mesh p }) s) s

/-- Data go again from the writer's copy, into the landing that is reserved (R402). -/
def State.sendData (s : State) (src dst : Endp) (o : Ask) (part : Nat) (secure : Bool) (n : Nat) : State :=
  s.inject .dat src [dst] (match dst with | .hpp _ => 1 | _ => 2) part secure (.wdata o) ((n + 63) / 64)

/-- The way of a run is permanently faulty: it ends with status 4, and the Foreman hears of it (R402). -/
def State.wayDead (s : State) (o : Ask) : State :=
  (s.report { source := srcForeman, kind := .bare, fault := 0x20 }).endAsk o 4

/-- A run of a bench is issued again, as a new packet with AGE 0 (R389, R402, R403): a read, a write that has no grant and a message ask
again, and granted data go again. After the third retry the run fails. Every try is reported to the Foreman. -/
def State.retryAsk (s : State) (o : Ask) : State :=
  let s := s.nocFault
  match s.askRun o with
  | none => s
  | some (b, x, r) =>
    let s := (s.dropPackets o).dropLook o
    if 3 ≤ r.tries then s.wayDead o
    else
      let s := s.modRun o fun r => { r with tries := r.tries + 1 }
      let o' := { o with tries := o.tries + 1 }
      if o.write && x.mcast then
        s.startCast b { x with writes := x.writes.map fun q => { q with sent := false, tries := q.tries + 1 } }
      else if o.write && r.told then
        match s.serverOf b r with
        | some e => s.sendData (.bench b) e o' x.part x.sec r.n
        | none => s.endAsk o' 4
      else s.ask b x o.write o.run { r with tries := r.tries + 1 }

/-- A request that a port serves is tried again on chip in the same way; a message is not retried, and its port answers status 4 after
the third failure (R402). -/
def State.retryServed (s : State) (p num : Nat) : State :=
  let s := s.nocFault
  match s.served? p num with
  | none => s
  | some v =>
    let o : Ask := { who := .port p, tag := num, write := v.msg.mop = 0 || v.msg.mop = 3, tries := v.tries }
    let s := s.dropPackets o
    if 3 ≤ v.tries then (s.report { source := srcForeman, kind := .bare, fault := 0x20 }).endServed p v 4
    else
      let s := s.modServed p num fun v => { v with tries := v.tries + 1, told := false, data := none }
      let o' := { o with tries := v.tries + 1 }
      if o.write then s.sendData (.port p) (.bench v.msg.bench) o' v.msg.part false v.msg.data.length
      else s.inject .req (.port p) [.bench v.msg.bench] 1 v.msg.part false (.read o')

/-- Whatever a DAT transfer acted for is tried again (R402). -/
def State.retry (s : State) (o : Ask) : State :=
  match o.who with
  | .bench _ => s.retryAsk o
  | .port p => if (s.served? p o.tag).any fun v => v.tries = o.tries then s.retryServed p o.tag else s.nocFault
  | _ => s

/-! ### REQ -/

/-- A scalar access through a bench window reaches its target (R146, R393, R399): a load is answered with its word, and a refused or
failing one with an undefined word (R400). -/
def State.windowAccess (s : State) (p : Pkt) (k off size : Nat) (store : Option Word) (sx : Bool) (id : Nat) (dead : Bool) : State :=
  let answer (s : State) (v : Word) : State := s.inject .rsp (.bench k) [p.src] 0 p.part p.secure (.word id v)
  let refused := (s.refusal p.part k off size p.secure).isSome || dead
  match store with
  | some x =>
    if refused then s
    else (s.partReports k off size).modBench k fun v => (v.writeDrawer off (leBytes size x.toNat)).see off size
  | none =>
    let l := (s.bench k).eccIn siteDrawer (off / 4 * 4) 4
    if refused then
      let (n, s) := s.draw
      answer s (Config.freeWord n)
    else if eccBad l then
      let (n, s) := (s.eccReports k l).draw
      answer s (Config.freeWord n)
    else answer (s.eccReports k l) (extend size sx (leNat ((s.bench k).drawer.getBytes off size)))

/-- The bytes that a request names at a bench: the run of a bench's transfer, or the range of a message from another device. -/
def State.target (s : State) (o : Ask) : Option (Nat × Nat) :=
  match o.who with
  | .port p => match s.served? p o.tag with
    | some v => if v.tries = o.tries then some (v.msg.w1.toNat, if v.msg.ranged then v.msg.len else 0) else none
    | none => none
  | _ => match s.askRun o with
    | some (_, _, r) => match r.place with | .drawer _ off => some (off, r.n) | _ => none
    | none => none

/-- A request reaches bench `k` (R383, R399): it is refused, or its data go, its landing is granted, or it is carried out. -/
def State.atBench (s : State) (p : Pkt) (k : Nat) (o : Ask) (dead : Bool) : State :=
  let me : Endp := .bench k
  match s.target o with
  | none => s.nocFault
  | some (off, n) =>
    match if dead then some 4 else s.refusal p.part k off n p.secure with
    | some st => s.giveEnd me o p.part p.secure st
    | none => match p.body with
      | .read _ =>
        let (s, d, po) := s.readDrawer k off n
        s.giveData me o 2 p.part p.secure d po
      | .write _ => (s.reserve me o p.part).inject .rsp me [o.who] 0 p.part p.secure (.grant o)
      | _ =>
        let (s, st) := match o.who with
          | .port q => match s.served? q o.tag with
            | some v => let (s, st, _) := s.servedOp v.msg; (s, st)
            | none => (s, 4)
          | .bench b => match s.askRun o with
            | some (_, { msg := some (.post w0 w1), .. }, _) => s.postTo k s.dev.id (BitVec.ofNat 7 b) w0 w1 false
            | _ => (s, 4)
          | _ => (s, 4)
        s.giveEnd me o p.part p.secure st

/-- A request reaches HPP module `m` (R381, R383): a read goes to the host, or through the Veneer cache where the partition has ways (R316,
R317); a write is granted; missing lines are read. A module that is down abandons it (R483). -/
def State.atModule (s : State) (p : Pkt) (m : Nat) (o : Ask) (dead : Bool) : State :=
  let me : Endp := .hpp m
  match s.askRun o with
  | none => s.nocFault
  | some (_, x, r) =>
    if dead || !(s.hpp m).works then (s.dropLook o).giveEnd me o p.part p.secure 4
    else match p.body with
      | .read _ => match s.sliceFor x r with
        | some e => s.inject .req me [e] 0 p.part false (.look o)
        | none => s.modHpp m fun h => h.push { tag := 0, use := .run o, part := p.part, pa := r.pa, len := r.n, write := false }
      | .write _ => (s.reserve me o p.part).inject .rsp me [o.who] 0 p.part p.secure (.grant o)
      | .miss _ =>
        match s.veneer.looks.find? fun k => k.o = o with
        | none => s.nocFault
        | some k =>
          let ls := k.fills.map (·.1)
          let lo := ls.foldl min (ls.headD 0)
          let hi := ls.foldl max 0
          s.modHpp m fun h => h.push
            { tag := 0, use := .fill o, part := p.part, pa := 128 * lo, len := 128 * (hi + 1 - lo), write := false, keep := s.glb.coh }
      | _ => s

/-- A message of a bench leaves by a port; where the device refuses it, its end returns from port `q` with status 4 (R427, R428). -/
def State.depart (s : State) (p : Pkt) (q : Nat) (o : Ask) (m : OutMsg) : State :=
  (s.routeOut m none).getD (s.giveEnd (.port q) o p.part p.secure 4)

/-- A request reaches port `q` (R383, R386): its message leaves, or its data are granted a landing. -/
def State.atPort (s : State) (p : Pkt) (q : Nat) (o : Ask) (dead : Bool) : State :=
  let me : Endp := .port q
  match s.askRun o with
  | none => s.nocFault
  | some (b, x, r) =>
    if dead then s.giveEnd me o p.part p.secure 4
    else match p.body, r.place with
      | .write _, _ => (s.reserve me o p.part).inject .rsp me [o.who] 0 p.part p.secure (.grant o)
      | .read _, .remote d tb off => (s.modRun o fun r => { r with told := true }).depart p q o (farMsg b x false r d tb off)
      | .op _, .remote d tb off => (s.modRun o fun r => { r with told := true }).depart p q o (farMsg b x true r d tb off)
      | _, _ => s

/-- A request reaches the dowel unit beside the Foreman (R552, R556, R576). -/
def State.atForeman (s : State) (p : Pkt) (dead : Bool) : State :=
  match p.body, p.src with
  | .dowel op i v id, .bench b =>
    if dead then
      let (n, s) := s.draw
      s.inject .rsp .foreman [p.src] 0 p.part p.secure (.word id (Config.freeWord n))
    else
      let (s, w) := s.dowelOp p.part op i v b
      s.inject .rsp .foreman [p.src] 0 p.part p.secure (.word id w)
  | .op o, .port q =>
    match s.served? q o.tag with
    | none => s.nocFault
    | some v =>
      if dead then s.giveEnd .foreman o p.part p.secure 4
      else
        let (s, st, test) := s.servedOp v.msg
        let s := s.giveEnd .foreman o p.part p.secure st
        match test with | some i => s.dowelTest p.part i | none => s
  | _, _ => s

/-- An access to bank 15 waits while its wipe runs (R367). -/
def State.reqHeld (s : State) (p : Pkt) : Bool :=
  s.glb.wipe.isSome && match p.dst, p.body with
    | [.bench _], .load off size .. | [.bench _], .store off size _ => s.wipeHolds off size
    | [.bench _], .read o | [.bench _], .write o => match s.target o with | some (off, n) => s.wipeHolds off n | none => false
    | _, _ => false

/-- A REQ packet is served by its endpoint (R383). `dead`: its way is cut (R638). -/
def State.serveReq (s : State) (p : Pkt) (dead : Bool) : State :=
  match p.dst, p.body with
  | [.bench k], .load off size sx id => s.windowAccess p k off size none sx id dead
  | [.bench k], .store off size v => s.windowAccess p k off size (some v) false 0 dead
  | [.bench k], .read o | [.bench k], .write o | [.bench k], .op o => s.atBench p k o dead
  | [.hpp m], .read o | [.hpp m], .write o | [.hpp m], .miss o => s.atModule p m o dead
  | [.port q], .read o | [.port q], .write o | [.port q], .op o => s.atPort p q o dead
  | [.foreman], _ => s.atForeman p dead
  | [.slice i], .look o =>
    match s.askRun o with
    | none => s.nocFault
    | some (_, _, r) =>
      if dead then s.giveEnd (.slice i) o p.part p.secure 4 else s.startLook { o, part := p.part, pa := r.pa, n := r.n }
  | _, _ => s

/-- NOC_REQUEST (R383): the n-th REQ packet reaches its endpoint and is served. -/
def execNocRequest (n : Nat) (bad : Option NocLink) (s : State) : Out :=
  .next (if !s.alive then s else
    let s := s.linkBad? bad
    match s.noc.req[n]? with
    | none => s
    | some p =>
      if !s.noc.canReach .req n || s.reqHeld p then s
      else (({ s with noc := s.noc.reached .req p } : State).serveReq p (s.noc.cut .req p)).advanceAll)

/-! ### RSP -/

/-- A grant reaches the writer: its data leave (R383, R384). -/
def State.granted (s : State) (p : Pkt) (o : Ask) : State :=
  match o.who with
  | .port q => match s.served? q o.tag with
    | some v => if v.tries = o.tries then s.sendData (.port q) p.src o p.part p.secure v.msg.data.length else s
    | none => s.nocFault
  | .bench b => match s.askRun o with
    | some (_, _, r) => (s.modRun o fun r => { r with told := true }).sendData (.bench b) p.src o p.part p.secure r.n
    | none => s
  | _ => s

/-- The end of a request reaches its requester (R383, R399). -/
def State.ended (s : State) (o : Ask) (status : Nat) : State :=
  match o.who with
  | .port q => match s.served? q o.tag with
    | none => s.nocFault
    | some v =>
      if v.tries ≠ o.tries then s
      else if v.msg.mop = 1 ∧ status < 2 then (s.modServed q o.tag fun v => { v with told := true }).checkServed q o.tag
      else s.endServed q v status
  | _ => s.endAsk o status

/-- NOC_RESPONSE (R383, R146): the n-th RSP packet lands in the slot that its tag holds (R384). One for an earlier attempt, or for what
waits no more, changes nothing (DESIGN CHOICE, log 128); one of another partition is discarded (R400). -/
def execNocResponse (n : Nat) (s : State) : Out :=
  .next (if !s.alive then s else
    match s.noc.rsp[n]? with
    | none => s
    | some p =>
      if !s.noc.canReach .rsp n then s else
        let s : State := { s with noc := s.noc.reached .rsp p }
        (match p.dst, p.body with
          | [.bench b], .word id v => s.loadReturns b id v
          | [e], .grant o => if e = o.who then s.granted p o else s
          | [e], .done o st => if e = o.who then s.ended o st else s
          | _, _ => s).advanceAll)

/-! ### DAT -/

/-- The data of a write land at bench `k` (R383, R384): in its drawer, with an addition where the transfer adds, and the end returns. -/
def State.dataAtBench (s : State) (p : Pkt) (k : Nat) (o : Ask) : State :=
  let me : Endp := .bench k
  match o.who with
  | .port q => match s.served? q o.tag with
    | none => s.nocFault
    | some v =>
      let m := v.msg
      let off := m.w1.toNat
      let run : Run := { place := .drawer k off, n := min m.len m.data.length, data := some (m.data.take m.len), poison := m.poison }
      let add := if m.mop = 3 then accumTy (wfld m.w0 7 4) else none
      let bad := m.poison || (s.bench k).addBad off run.n add
      ((s.landRun k off run add).modBench k fun w => w.see off run.n).giveEnd me o p.part p.secure (b2n bad)
  | _ => match s.askRun o with
    | none => s.nocFault
    | some (b, x, r) => match r.place with
      | .drawer _ off =>
        let bad := r.poison || (s.bench k).addBad off r.n x.addTy
        (s.landWrite b k off x r).giveEnd me o p.part p.secure (b2n bad)
      | _ => s

/-- The data of a write reach the endpoint that granted them a landing (R384). Data without a landing of their partition are discarded,
reported, and tried again (R400). -/
def State.dataLands (s : State) (p : Pkt) (e : Endp) (o : Ask) : State :=
  if !s.reserved e o p.part then s.retry o
  else
    let s := s.unreserve e o
    match e with
    | .bench k =>
      match if s.usable k then none else some 4 with
      | some st => s.giveEnd e o p.part p.secure st
      | none => s.dataAtBench p k o
    | .hpp m => match s.askRun o with
      | none => s.nocFault
      | some (_, _, r) =>
        if !(s.hpp m).works then s.giveEnd e o p.part p.secure 4
        else s.modHpp m fun h => h.push
          { tag := 0, use := .run o, part := p.part, pa := r.pa, len := r.n, write := true, poison := r.poison, data := r.data.getD [] }
    | .port q => match s.askRun o with
      | some (b, x, r) => match r.place with
        | .remote d tb off => s.depart p q o (farMsg b x true r d tb off)
        | _ => s
      | none => s.nocFault
    | _ => s

/-- A multicast transfer reaches the reserved slots of its targets (R387, R388): each is written, or refuses (R399), and the end goes to every
target and to the issuing bench (R383). -/
def State.castLands (s : State) (p : Pkt) (o : Ask) : State :=
  match s.askRun o with
  | none => s.nocFault
  | some (b, x, _) =>
    let (s, st) := x.writes.foldl (fun (acc : State × Nat) r =>
      match r.place with
      | .drawer k off =>
        match acc.1.refusal p.part k off r.n false with
        | some e => (acc.1, max acc.2 e)
        | none => (acc.1.landWrite b k off x r, max acc.2 (b2n r.poison))
      | _ => acc) (s, 0)
    let s := p.dst.foldl (fun (s : State) e => if e = .bench b then s else s.inject .rsp p.src [e] 0 p.part p.secure (.done o st)) s
    s.giveEnd p.src o p.part p.secure st

/-- A DAT transfer lands whole, its CRC right (R383). -/
def State.landDat (s : State) (p : Pkt) : State :=
  match p.dst, p.body with
  | [_], .data o d po =>
    match o.who with
    | .port q => match s.served? q o.tag with
      | some v => if v.tries = o.tries then
          (s.modServed q o.tag fun v => { v with data := some d, poison := po }).checkServed q o.tag else s
      | none => s.nocFault
    | _ => match s.askRun o with
      | some (_, x, _) => if x.part = p.part then s.landData o d po else s.retry o
      | none => s
  | [e], .wdata o => s.dataLands p e o
  | [.slice _], .fill o d po => s.fillLook o d po
  | _, .mdata o => s.castLands p o
  | _, _ => s

/-- NOC_DATA (R402): the n-th DAT transfer lands and its CRC is checked; a mismatch, or a way that is cut (R638), has it tried again. -/
def execNocData (n : Nat) (crcOk : Bool) (bad : Option NocLink) (s : State) : Out :=
  .next (if !s.alive then s else
    let s := s.linkBad? bad
    match s.noc.dat[n]? with
    | none => s
    | some p =>
      if !s.noc.canReach .dat n then s
      else
        let dead := s.noc.cut .dat p
        let s : State := { s with noc := s.noc.reached .dat p }
        (match p.body.ask with
          | none => s
          | some o => if dead then (s.dropLook o).wayDead o else if crcOk then s.landDat p else s.retry o).advanceAll)

/-! ### Waiting (R389, R403) -/

/-- Raise AGE, up to 15 (R389). -/
def ageUp (n : Nat) : Nat := min 15 (n + 1)

/-- AGE_INCREMENT (R389): 64 more cycles of waiting of the n-th packet of a mesh. -/
def execAgeIncrement (mesh : NocMesh) (n : Nat) (s : State) : Out :=
  .next (if !s.alive then s else
    { s with noc := s.noc.set mesh fun l => l.modify n fun p => { p with age := ageUp p.age } })

/-- A run of a transfer that waits for an answer on chip: not one whose message has left by a port, which is watched on the link side. -/
def Xfer.silent (x : Xfer) : Option (Bool × Nat) :=
  let on (r : Run) : Bool := r.waiting && match r.place with | .remote .. => !r.told | _ => true
  match x.writes.findIdx? on with
  | some i => some (true, i)
  | none => (x.reads.findIdx? on).map fun i => (false, i)

/-- NOC_WATCHDOG (R403): nothing of an on-chip transfer has arrived for 8,192 cycles; it is reported and tried again as for a CRC
mismatch. -/
def execNocWatchdog (b : Bench7) (tag : BitVec 6) (s : State) : Out :=
  let k := b.toNat
  .next (if !s.alive then s else
    match (s.bench k).xfer? tag.toNat with
    | none => s
    | some x => match x.silent with
      | none => s
      | some (w, i) => match (if w then x.writes else x.reads)[i]? with
        | none => s
        | some r => (s.retryAsk { who := .bench k, tag := tag.toNat, write := w, run := i, tries := r.tries }).advanceAll)

/-- PORT_RETRY (R332 to R334): an access of a drawer port that met the busy line, or a bank conflict, takes effect in its retry cycle; the
lost cycle of port B is charged to its class (R57). The data that it reads are those of that cycle, and a write takes effect whole; a
part of an uncorrectable word that it writes is reported (R331). -/
def execPortRetry (b : Bench7) (cls : SplitClass) (portB write : Bool) (addr : BitVec 21) (data : List Byte) (s : State) : Out :=
  let k := b.toNat
  .next (if !(s.alive && s.usable k) then s else
    let s := if portB then s.modBench k fun v => v.charge cls 1 else s
    let d := data.take (0x200000 - addr.toNat)
    if write then (s.partReports k addr.toNat d.length).modBench k fun v => v.writeDrawer addr.toNat d
    else s.eccReports k ((s.bench k).eccIn siteDrawer addr.toNat 1))

end Sys2Proof.Machine
end

