-- ==== Sys2Proof/Machine/HppOps.lean ====
section
/-! DEFINITION. The frames of the Host Parallel Port: answers to reads and writes (R453, R485, R486), snoops (R473),
frames without a header (R450, R454), and the faults of a module (R483, R484). -/

namespace Sys2Proof.Machine

/-- The request of a module under a tag. -/
def Hpp.req? (h : Hpp) (tag : Nat) (write : Bool) : Option HostReq :=
  h.reqs.find? fun r => r.tag = tag && r.write = write && r.sent

/-- Requests whose header waits leave in order while credits and tags last (R454). -/
def Hpp.pumpReqs (h : Hpp) : Hpp :=
  (h.reqs.filter fun r => !r.sent).foldl (fun (acc : Hpp) r => acc.push r) { h with reqs := h.reqs.filter (·.sent) }

/-- A request has its answer: it leaves the module, its frame counts, and its header credit is back (R450, R454). -/
def State.answered (s : State) (m tag : Nat) : State :=
  s.modHpp m fun h =>
    ({ h with reqs := h.reqs.filter fun r => !(r.sent && r.tag = tag), used := h.used - 1, rxSeq := h.rxSeq + 1 }).pumpReqs

/-- The virtual address of a run. -/
def Run.hostVa (r : Run) : Nat := match r.place with | .host va => va | _ => 0

/-- The host refuses an access of a transfer: HOST_REFUSED is captured (R485, R486). -/
def State.hostRefused (s : State) (o : Ask) (write : Bool) : State :=
  match s.askRun o with
  | some (b, x, r) => s.fenceFault x.part b 10 (b2n write) r.hostVa
  | none => s

/-- Whether the energy of a run's bytes was counted when its transfer was issued: those of a converting stream (R276; log 126). -/
def State.metered (s : State) (o : Ask) : Bool :=
  match s.askRun o with
  | some (_, x, _) => (match x.piece with | some (.conv _ _ _ none _) => true | _ => false)
  | none => false

/-- Bytes of a request cross the module, and their energy counts for its partition (R605). -/
def State.crossed (s : State) (r : HostReq) (bytes : Nat) : State :=
  match r.use with
  | .run o => if s.metered o then s else s.hppEnergy r.part bytes
  | _ => s.hppEnergy r.part bytes

/-- The answer to a read of a run leaves module `k` (R383); a read of WARM delivers no data (R315). -/
def State.hostGives (s : State) (k : Nat) (o : Ask) (part : Nat) (bytes : List Byte) (poison : Bool) : State :=
  match s.askRun o with
  | some (_, x, _) =>
    (match x.piece with
      | some (.warm ..) => s.giveEnd (.hpp k) o part false (b2n poison)
      | _ => s.giveData (.hpp k) o 0 part x.sec bytes poison)
  | none => s

/-- A lookup whose host read failed ends with a status, and the lookups that waited for its lines go on (R346, R483, R485). -/
def State.lookFails (s : State) (k : Nat) (o : Ask) (part status : Nat) : State :=
  ((s.dropLook o).giveEnd (.hpp k) o part false status).pumpLooks

/-- The missing lines of a lookup come from the host: module `k` sends them to the slice (R345, R383). -/
def State.hostFills (s : State) (k : Nat) (o : Ask) (r : HostReq) (data : List Byte) (poison : Bool) : State :=
  match s.veneer.looks.find? fun l => l.o = o with
  | none => s
  | some l =>
    s.inject .dat (.hpp k) [.slice l.slice] 0 r.part false
      (.fill o (l.fills.flatMap fun f => (data.drop (128 * f.1 - r.pa)).take 128) poison)

/-- RD_DATA (R453): the answer to a read. Its bytes go to the bench that asked for them, or its lines to the slice that fetches them. -/
def execRdData (m : Module2) (tag : BitVec 12) (refused poison : Bool) (data : List Byte) (s : State) : Out :=
  let k := m.toNat
  .next (if !s.alive || !(s.hpp k).works then s else
    match (s.hpp k).req? tag.toNat false with
    | none => s
    | some r =>
      let s := (s.answered k tag.toNat).crossed r data.length
      (match r.use with
        | .run o =>
          if refused then (s.hostRefused o false).giveEnd (.hpp k) o r.part false 3 else s.hostGives k o r.part (data.take r.len) poison
        | .fill o => if refused then (s.hostRefused o false).lookFails k o r.part 3 else s.hostFills k o r data poison
        | .irq _ => s).advanceAll)

/-- An interrupt message has ended: pending triggers are re-evaluated (R480). -/
def State.irqEnd (s : State) (p : Nat) : State :=
  let again := (s.ten p).irqAgain
  let s := s.modTen p fun t => { t with irqSent := false, irqAgain := false }
  if again && (s.ten p).irqLive != 0 then s.irqSend p else s

/-- WR_ACK (R453, R480): a write is visible to every agent of the host, or refused; its end goes to the bench that made it (R383). -/
def execWrAck (m : Module2) (tag : BitVec 12) (refused : Bool) (s : State) : Out :=
  let k := m.toNat
  .next (if !s.alive || !(s.hpp k).works then s else
    match (s.hpp k).req? tag.toNat true with
    | none => s
    | some r =>
      let s := (s.answered k tag.toNat).crossed r r.data.length
      let s := if refused then s else s.hostStore r.pa r.data
      match r.use with
      | .run o =>
        ((if refused then s.hostRefused o true else s).giveEnd (.hpp k) o r.part false (if refused then 3 else b2n r.poison)).advanceAll
      | .irq p =>
        (if refused then s.captureRaw p 0x80 10 1 (s.ten p).irqAddr true else s).irqEnd p
      | .fill _ => s)

/-- The newest packet of SNP reaches its endpoint. -/
def State.snpReached (s : State) : State :=
  match s.noc.snp.getLast? with
  | some p => { s with noc := s.noc.reached .snp p }
  | none => s

/-- A snoop of a line crosses SNP to its slice, which invalidates the line, and the reply crosses back (R347, R383, R385): one exchange,
within the command that brings the snoop (DESIGN CHOICE, log 125). -/
def State.snoop (s : State) (m l : Nat) : State :=
  let e : Endp := .slice (sliceOf l)
  let s := ((s.inject .snp (.hpp m) [e] 0 0 false (.snoop l)).snpReached).veneerKill l
  (s.inject .snp e [.hpp m] 0 0 false (.reply l)).snpReached

/-- SNP_INV (R473): the line goes from every way that holds it, and the module answers. In Rest the Veneer cache holds no line, and the
module answers at once (R608). -/
def execSnpInv (m : Module2) (_tag : BitVec 12) (addr : BitVec 52) (s : State) : Out :=
  .next (if !s.clocked || !(s.hpp m.toNat).works then s
    else (if s.alive then s.snoop m.toNat (addr.toNat / 128) else s).modHpp m.toNat fun h =>
      { h with rxSeq := h.rxSeq + 1, txSeq := h.txSeq + 1 })

/-- A module is marked down: every request outstanding on it is abandoned (R483). -/
def State.hppDown (s : State) (m : Nat) : State :=
  if (s.hpp m).down then s else
    let reqs := (s.hpp m).reqs
    let s := s.modHpp m fun h => { h with down := true, up := false, reqs := [], used := 0 }
    let s := s.logAll (srcModule m) 0x31 (w32 m) 0 0 4
    (reqs.foldl (fun s r => match r.use with
      | .run o => s.giveEnd (.hpp m) o r.part false 4
      | .fill o => s.lookFails m o r.part 4
      | .irq p => (s.modTen p fun t => { t with irqStatus := t.irqStatus ||| 4 }).irqEnd p) s).advanceAll

/-- A training of a module ends: the third failure in a row marks it down (R483). -/
def State.hppTrainEnd (s : State) (m : Nat) (ok : Bool) : State :=
  if ok then s.modHpp m fun h => { h with fails := 0, up := true }
  else
    let s := s.modHpp m fun h => { h with fails := h.fails + 1 }
    if 3 ≤ (s.hpp m).fails then s.hppDown m else s

/-- HPP_RETRAIN (R483): a line shows excess errors; the spare of its group takes its place, and a second line of one
group marks the module down. -/
def execHppRetrain (m : Module2) (line : BitVec 9) (ok : Bool) (s : State) : Out :=
  let k := m.toNat
  let g := line.toNat / 32
  .next (if !s.alive || !(s.hpp k).works then s
    else if (s.hpp k).spares.contains g then s.hppDown k
    else if ok then
      ((s.modHpp k fun h => { h with spares := h.spares ++ [g] }).hppTrainEnd k true).logAll (srcModule k) 0x30
        (w32 k) (w32 line.toNat) 0
    else s.hppTrainEnd k false)

/-- HPP_TIMEOUT (R483): the oldest request of a module has had no answer for 4 µs; the module retrains and replays. -/
def execHppTimeout (m : Module2) (ok : Bool) (s : State) : Out :=
  let k := m.toNat
  .next (if !s.alive || !(s.hpp k).works || (s.hpp k).reqs.isEmpty then s
    else (s.hppTrainEnd k ok).modHpp k fun h => if ok then { h with resend := some (h.acked + 1) } else h)

/-- HPP_FRAME (R450, R454): a frame without a header, or with a bad CRC: acknowledgement, replay and credits. -/
def execHppFrame (m : Module2) (f : HppCtl) (s : State) : Out :=
  let k := m.toNat
  .next (if !s.alive || !(s.hpp k).works then s
    else s.modHpp k fun h =>
      if !f.crcOk then { h with nakOwed := true }
      else ({ h with
        acked := f.ackseq, nakOwed := false, used := h.used - f.credit.toNat
        resend := if f.nak then some (f.ackseq + 1) else none }).pumpReqs)

end Sys2Proof.Machine
end

