-- ==== Sys2Proof/Machine/Plan.lean ====
section
/-! DEFINITION. The tick plan (R48 to R53): the fields of an entry, which entries are active, and how many flits a
slot carries (R431). -/

namespace Sys2Proof.Machine

/-- Bits `hi` down to `lo` of a tick-plan entry (R48). -/
def pfld (e : DWord) (hi lo : Nat) : Nat := fld e.toNat hi lo

/-- Input slot. -/
def peInSlot (e : DWord) : Nat := pfld e 59 54
/-- Input port. -/
def peInPort (e : DWord) : Nat := pfld e 53 50
/-- Flits of the entry. -/
def peFlits (e : DWord) : Nat := pfld e 49 39
/-- Rack. -/
def peRack (e : DWord) : Nat := pfld e 38 37
/-- Bench. -/
def peBench (e : DWord) : Nat := pfld e 36 30
/-- Kind: 0 ORIGIN, 1 TRANSIT, 2 RECEIVE. -/
def peKind (e : DWord) : Nat := pfld e 29 28
/-- Destination device. -/
def peDest (e : DWord) : Nat := pfld e 27 16
/-- Priority. -/
def pePrio (e : DWord) : Nat := pfld e 15 14
/-- Partition. -/
def pePart (e : DWord) : Nat := pfld e 13 11
/-- Valid. -/
def peValid (e : DWord) : Bool := pfld e 10 10 = 1
/-- Output port. -/
def pePort (e : DWord) : Nat := pfld e 9 6
/-- Output slot. -/
def peSlot (e : DWord) : Nat := pfld e 5 0
/-- The port whose training an entry needs (R74), and on which it owns a slot (R49). -/
def peOwnPort (e : DWord) : Nat := if peKind e = 2 then peInPort e else pePort e
/-- The slot that an entry owns on that port (R49). -/
def peOwnSlot (e : DWord) : Nat := if peKind e = 2 then peInSlot e else peSlot e

/-- Flits of one slot at a rate (R47, R52): 2^LEN / 64 cycles of 0.5 ns at 256, 128 or 64 GB/s. -/
def slotFlits (len rate : Nat) : Nat := 2 ^ (len - 7) / 2 ^ rate
/-- The usable flits of a slot (R431). -/
def usableFlits (len rate : Nat) : Nat := 15 * slotFlits len rate / 16

/-- The tick plan is in use: PLAN_EN, and in use since the last boundary (R37, R82). -/
def State.planUse (s : State) : Bool := s.stroke.planEn && s.stroke.planOn

/-- FREERUN has suspended the tick plan (R82). -/
def State.planHeld (s : State) : Bool := s.stroke.planEn && s.stroke.suspended && !s.stroke.planOn

/-- An entry of partition `p` may act: valid, its port trained since the last boundary, its slot owned (R74, R514). -/
def State.entryOn (s : State) (p : Nat) (e : DWord) : Bool :=
  peValid e && (s.port (peOwnPort e)).live && (s.port (peOwnPort e)).planOn &&
    (tget 0 (s.ten p).slotsUse (peOwnPort e)).getLsbD (peOwnSlot e)

/-- A tick-plan entry with its partition and its index there. -/
abbrev PlanRef := Nat × Nat × DWord

/-- The entries that may act, by descending PRIO and then by partition and index (R51, R53). -/
def State.planOrder (s : State) : List PlanRef :=
  let all : List PlanRef := allParts.flatMap fun p => ((s.ten p).plan.mapIdx fun i e => (p, i, e)).filter fun r => s.entryOn p r.2.2
  [3, 2, 1, 0].flatMap fun q => all.filter fun r => pePrio r.2.2 = q

/-- The active entries: those of a tick plan in use. -/
def State.activePlan (s : State) : List PlanRef := if s.planUse then s.planOrder else []
/-- The entries of a suspended tick plan (R82). -/
def State.suspendedPlan (s : State) : List PlanRef := if s.planHeld then s.planOrder else []

end Sys2Proof.Machine
end

