-- ==== Sys2Proof/Machine/Links.lean ====
section
/-! DEFINITION. The Molarga ports: the reception of flits (R413), messages at their target (R434, R435, R576, R581)
and their answers (R419), scheduled traffic (R320, R431, R432), training (R425, R426), retraining (R436), and the
faults of a port (R442, R443). -/

namespace Sys2Proof.Machine

/-! ### Replay and credits (R413, R415) -/

/-- The peer has acknowledged up to a sequence number. -/
def Port.ackTo (q : Port) (a : Nat) : Port :=
  match q.replay with
  | [] => q
  | f :: _ =>
    let n := (a + 4097 - f.seq) % 4096
    if 0 < n ∧ n ≤ q.replay.length then
      { q with replay := q.replay.drop n, sends := if n = q.replay.length then 0 else 1 }
    else q

/-- Acknowledgement, credits and NAK of a flit. -/
def Port.control (q : Port) (h : FlitHdr) : Port :=
  let q := q.ackTo h.ackseq.toNat
  let q := { q with used := tset 0 q.used h.crvc.toNat (tget 0 q.used h.crvc.toNat - h.crcnt.toNat) }
  if h.nak && !q.replay.isEmpty then { q with sends := q.sends + 1, replays := q.replays + 1 } else q

/-- A sequenced arrival of `n` flits: the control fields act; the first must be the next expected, and `f` is then
what its content does (R413). -/
def State.receive (s : State) (p : Nat) (h : FlitHdr) (n : Nat) (f : State → State) : State :=
  if !(s.clocked && (s.port p).live) then s else
    let s := s.modPort p fun q => q.control h
    let s := if h.seq.toNat = (s.port p).rxSeq then
        f (s.modPort p fun q => { q with rxSeq := (q.rxSeq + n) % 4096, nakSent := false })
      else s.modPort p fun q => { q with nakSent := true }
    (s.pumpPort p id).serveWaiting

/-- IDLE (R413): only the control fields act. -/
def execIdle (port : Port4) (h : FlitHdr) (s : State) : Out :=
  .next (if !(s.clocked && (s.port port.toNat).live) then s
    else (s.pumpPort port.toNat fun q => q.control h).serveWaiting)

/-- FLIT_CRC_FAILURE (R413): the flit is discarded and the peer is asked to resend. -/
def execFlitCrcFailure (port : Port4) (s : State) : Out :=
  .next (if !(s.clocked && (s.port port.toNat).live) then s
    else s.modPort port.toNat fun q => { q with nakSent := true })

/-! ### Responses at the requester -/

/-- The run of another device for which the transfer under a tag waits: in its writes or its reads, and which. -/
def Xfer.farRun (x : Xfer) : Option (Bool × Nat) :=
  let far (r : Run) : Bool := r.waiting && match r.place with | .remote .. => true | _ => false
  match x.writes.findIdx? far with
  | some i => some (true, i)
  | none => (x.reads.findIdx? far).map fun i => (false, i)

/-- The MOP of the message that waits (R417). -/
def Xfer.mop (x : Xfer) (write : Bool) : Nat :=
  match x.msg with
  | some (.post ..) => 4
  | some (.dowel ..) => 5
  | _ => if write then (if x.addTy.isSome then 3 else 0) else 1

/-- The run for which the response to a tag of a bench comes: one whose message has left, with no packet of it on chip. A response for a
tag that does not wait is discarded (R440). -/
def State.farAsk (s : State) (b t : Nat) : Option (Ask × Xfer × Run) :=
  match (s.bench b).xfer? t with
  | none => none
  | some x => match x.farRun with
    | none => none
    | some (w, i) => match (if w then x.writes else x.reads)[i]? with
      | none => none
      | some r =>
        let o : Ask := { who := .bench b, tag := t, write := w, run := i, tries := r.tries }
        if r.told && !s.onChip o then some (o, x, r) else none

/-- Port `p` has the end of a message of a bench, with a status: it goes to the bench (R383, R419). -/
def State.ackFor (s : State) (p b t st : Nat) : State :=
  match s.farAsk b t with
  | some (o, x, _) => s.giveEnd (.port p) o x.part x.sec st
  | none => s

/-- Port `p` has the data of a GET of a bench: they go to the bench (R383, R419). -/
def State.dataFor (s : State) (p b t : Nat) (data : List Byte) (poison : Bool) : State :=
  match s.farAsk b t with
  | some (o, x, r) => if o.write then s else s.giveData (.port p) o 2 x.part x.sec (data.take r.n) poison
  | none => s

/-! ### Arrival of a message -/

/-- Wake the device from Rest (R609). -/
def State.wakeBy (s : State) (code : Nat) : State :=
  if s.dev.rest = .resting then { s with dev := { s.dev with rest := .waking, wakeSrc := code } } else s

/-- A message for this device acts, or waits for the wake (R608); a reserved MOP is discarded (R444); a response MOP on
a request channel is refused (R434). -/
def State.arrive (s : State) (p : Nat) (vc : Nat) (m : OutMsg) : State :=
  let sb := wfld m.w0 21 15
  let tag := wfld m.w0 27 22
  if isRsp m.mop then
    let s := s.took p m
    if vc < 2 then s.emit (ackOf m s.dev.id.toNat 5)
    else if m.mop = 2 then s.dataFor p sb tag m.data m.poison
    else s.ackFor p sb tag (wfld m.w2 7 0)
  else if 7 ≤ m.mop then (s.took p m).logAll (srcPort p) 0x26 (w32 p) (w32 m.mop) 0
  else if s.alive then s.serve p m
  else
    let s := s.wakeBy 4
    { s with links := { s.links with parked := s.links.parked ++ [(p, m)] } }

/-- A message of the kind `mop` arrives whole on a port: for this device, or to be forwarded (R417, R427). A header whose
MOP is another assigned one is no arrival of this kind. -/
def State.message (s : State) (mop : Nat) (port : Port4) (h : FlitHdr) (w : MsgHdr) (data : List Byte) : State :=
  let p := port.toNat
  let got := wfld w.w0 3 0
  if got ≠ mop ∧ got < 7 then s else
    let m : OutMsg := { mop := got, dev := h.dest.toNat, part := h.part.toNat, w0 := w.w0, w1 := w.w1, w2 := w.w2, w3 := w.w3
                        data, poison := h.poison, src := some h.src.toNat, inVc := some h.vc.toNat }
    s.receive p h (msgPayloads m).length fun s =>
      if h.dest = s.dev.id then s.arrive p h.vc.toNat m
      else s.emit m (some (p, h.vc.toNat))

/-- PUT (R434): a message that writes the target drawer. -/
def execPut (port : Port4) (h : FlitHdr) (m : MsgHdr) (data : List Byte) (s : State) : Out := .next (s.message 0 port h m data)
/-- GET (R435): a message that reads the target drawer. -/
def execGet (port : Port4) (h : FlitHdr) (m : MsgHdr) (s : State) : Out := .next (s.message 1 port h m [])
/-- GET_DATA (R419): the data of a GET. -/
def execGetData (port : Port4) (h : FlitHdr) (m : MsgHdr) (data : List Byte) (s : State) : Out := .next (s.message 2 port h m data)
/-- ACCUMULATE (R435): a message that adds elements at the target. -/
def execAccumulate (port : Port4) (h : FlitHdr) (m : MsgHdr) (data : List Byte) (s : State) : Out := .next (s.message 3 port h m data)
/-- POST (R581): a mailbox entry or a notification. -/
def execPost (port : Port4) (h : FlitHdr) (m : MsgHdr) (s : State) : Out := .next (s.message 4 port h m [])
/-- DOWEL (R576): a dowel operation. -/
def execDowel (port : Port4) (h : FlitHdr) (m : MsgHdr) (s : State) : Out := .next (s.message 5 port h m [])
/-- ACK (R419): the answer to a request. -/
def execAck (port : Port4) (h : FlitHdr) (m : MsgHdr) (s : State) : Out := .next (s.message 6 port h m [])

/-! ### Slots -/

/-- On-time flits that have not left when the slot ends go on credit (R76, R440). -/
def Port.late (q : Port) : Port := { q with queue := q.queue.map fun f => { f with cred := true } }

/-- The flits that an entry has sent on time in the present slot. -/
def Port.onTime (q : Port) (p i : Nat) : Nat :=
  match q.sentOn.find? fun e => e.1 = p && e.2.1 = i with | some e => e.2.2 | none => 0

/-- Whether entry (p, i) may send one more flit on time in the present slot (R51, R52). -/
def State.mayOnTime (s : State) (port p i flits : Nat) : Bool :=
  let q := s.port port
  decide (q.onTime p i < flits) && decide (q.slotUsed < usableFlits s.stroke.len q.rate)

/-- Send a scheduled flit of entry (p, i): on time where its FLITS and the slot allow, else on credit (R51, R431). -/
def State.sendSlot (s : State) (port p i flits : Nat) (f : Flit) : State :=
  if s.mayOnTime port p i flits then
    (s.modPort port fun q =>
      { q with slotUsed := q.slotUsed + 1
               sentOn := (q.sentOn.filter fun e => !(e.1 = p && e.2.1 = i)) ++ [(p, i, q.onTime p i + 1)] }).putFlit port { f with cred := false }
  else s.putFlit port { f with cred := true }

/-- An ORIGIN entry at the start of its slot takes a published slot of its rack and sends it (R320, R431): on time as far as it may,
or wholly on credit while the plan is suspended (R82). -/
def State.originSend (s : State) (port slot : Nat) (r : PlanRef) (plan : Bool) : State :=
  let e := r.2.2
  let b := peBench e
  let n := peRack e
  let k := (s.bench b).rack n
  if !s.alive || !s.usable b || !k.enable || k.cons != 2 || k.ready = 0 then s else
    let c := k.acq.toNat
    let flag := tget false k.poison (k.idx c)
    let (s, d, po) := s.readDrawer b (k.addr c) (2 ^ k.slotlog)
    let s := s.modRack b n fun k => { k with acq := k.acq + 1 }
    let ps := chunks 240 d
    let fs : List Flit := ps.mapIdx fun i x =>
      { kind := if i + 1 = ps.length then 6 else 5, vc := 0, cred := false, poison := flag || po, dest := peDest e
        src := s.dev.id.toNat, slot, part := pePart e, payload := x, frees := if i + 1 = ps.length then some (b, n) else none }
    fs.foldl (fun (s : State) f => if plan then s.sendSlot port r.1 r.2.1 (peFlits e) f else s.putFlit port { f with cred := true }) s

/-- A TRANSIT entry at the start of its slot forwards the flits that its port's transit store holds for it (R431). -/
def State.transitSend (s : State) (port slot : Nat) (r : PlanRef) : State :=
  let mine (t : Nat × Nat × Nat × Flit) : Bool := t.1 = slot && t.2.1 = r.1 && t.2.2.1 = r.2.1
  let fs := (s.port port).transit.filter mine
  let s := s.modPort port fun q => { q with transit := q.transit.filter fun t => !mine t }
  fs.foldl (fun (s : State) t => s.sendSlot port r.1 r.2.1 (peFlits r.2.2) t.2.2.2) s

/-- SLOT_START (R47): a slot begins on a port; the entries of the slot are served by priority (R51). Flits of the ended slot that
have not left go on credit, and the guard has carried the waiting control blocks (R411). -/
def execSlotStart (port : Port4) (slot : BitVec 6) (s : State) : Out :=
  let p := port.toNat
  let n := slot.toNat
  .next (if !(s.clocked && (s.port p).live) then s else
    let s := s.pumpPort p fun q => { q.late with slotNow := some n, slotUsed := 0, sentOn := [], ctl := [] }
    let here (r : PlanRef) : Bool := peKind r.2.2 < 2 && pePort r.2.2 = p && peSlot r.2.2 = n
    let s := (s.activePlan.filter here).foldl (fun (s : State) r =>
      if peKind r.2.2 = 0 then s.originSend p n r true else s.transitSend p n r) s
    let s := (s.suspendedPlan.filter here).foldl (fun (s : State) r => if peKind r.2.2 = 0 then s.originSend p n r false else s) s
    -- Flits that wait for this slot under an entry that is no longer active leave on credit.
    let rest := (s.port p).transit.filter fun t => t.1 = n
    let s := s.modPort p fun q => { q with transit := q.transit.filter fun t => t.1 ≠ n }
    rest.foldl (fun (s : State) t => s.putFlit p { t.2.2.2 with cred := true }) s)

/-! ### Scheduled flits that arrive -/

/-- The entries that match a scheduled flit, the acting one first (R53, R431). While the plan is suspended, RECEIVE entries still
take what reaches its destination (R82; DESIGN CHOICE, log 122). -/
def State.matching (s : State) (p slot dest : Nat) : List PlanRef :=
  (s.activePlan ++ s.suspendedPlan.filter fun r => peKind r.2.2 = 2).filter fun r =>
    let e := r.2.2
    (peKind e = 1 || (peKind e = 2 && dest = s.dev.id.toNat)) && peInPort e = p && peInSlot e = slot && peDest e = dest

/-- Log PLAN_MULTI_HIT for the entries of the acting one's PRIO, once per pair of entries per activation (R53). Its SOURCE is the
Foreman, which holds the tick plan (R48; DESIGN CHOICE, log 107). -/
def State.multiHit (s : State) (a : PlanRef) (others : List PlanRef) : State :=
  (others.filter fun o => pePrio o.2.2 = pePrio a.2.2).foldl (fun (s : State) o =>
    let key := (a.2.1, 4096 * o.1 + o.2.1)
    if (s.ten a.1).planHits.contains key then s
    else (s.modTen a.1 fun t => { t with planHits := t.planHits ++ [key] }).log srcForeman 0x02 a.1 (w32 a.2.1) (w32 o.2.1) 0) s

/-- Commit the rack slots at the head of the filling order whose SLOT_END has arrived (R320). -/
def State.commitFills (b r : Nat) : Nat → State → State
  | 0, s => s
  | fuel + 1, s =>
    let k := (s.bench b).rack r
    match k.fills with
    | [] => s
    | f :: rest =>
      if f.ended then
        let owed := k.poisonNext.contains f.idx
        let s := s.modRack b r fun k => { k with fills := rest, poisonNext := k.poisonNext.erase f.idx }
        State.commitFills b r fuel (s.commitSlot b r (f.poison || owed) false)
      else s

/-- RACK_OVERRUN of an entry (R320): the next slot that it commits carries poison. -/
def State.overrun (s : State) (b r p i : Nat) : State :=
  (s.modRack b r fun k => { k with poisonNext := if k.poisonNext.contains i then k.poisonNext else k.poisonNext ++ [i] }).log
    (srcBench b) 0x12 p (w32 r) (w32 i) 0

/-- A flit for a RECEIVE entry (R320, R431): it fills the entry's present rack slot, or begins the next one. -/
def State.receiveSlot (s : State) (a : PlanRef) (payload : List Byte) (poison last : Bool) : State :=
  let e := a.2.2
  let b := peBench e
  let r := peRack e
  let i := a.2.1
  let k := (s.bench b).rack r
  if !s.usable b || !k.enable || k.prod != 2 then
    if k.overrun.contains i then s
    else (s.modRack b r fun k => { k with overrun := k.overrun ++ [i] }).log (srcBench b) 0x12 a.1 (w32 r) (w32 i) 0
  else if k.discard.contains i then
    if last then s.modRack b r fun k => { k with discard := k.discard.erase i } else s
  else
    let busy := k.fills.any fun f => f.idx = i && !f.ended
    let claim := match k.claims.find? fun c => c.1 = i with | some c => c.2 | none => 0
    if !busy && claim = 0 && k.freeSlots = 0 then
      let s := if last then s else s.modRack b r fun k => { k with discard := k.discard ++ [i] }
      s.overrun b r a.1 i
    else
      let s := if busy then s else s.modRack b r fun k =>
        { k with res := k.res + 1, fills := k.fills ++ [{ cnt := k.res.toNat, idx := i }]
                 claims := k.claims.map fun c => if c.1 = i then (i, c.2 - 1) else c }
      let k := (s.bench b).rack r
      match k.fills.find? fun f => f.idx = i && !f.ended with
      | none => s
      | some f =>
        let size := 2 ^ k.slotlog
        let data := payload.take (size - f.bytes)
        let s := s.modBench b fun v => v.writeDrawer (k.addr f.cnt + f.bytes) data poison
        let s := s.modRack b r fun k => { k with fills := k.fills.map fun g =>
          if g.cnt = f.cnt && g.idx = i && !g.ended then
            { g with bytes := g.bytes + data.length, ended := last, poison := g.poison || poison || decide (size < f.bytes + payload.length) }
          else g }
        State.commitFills b r k.fills.length s

/-- A flit for a TRANSIT entry (R431): on time, into the transit store, or at once on credit. -/
def State.transitFlit (s : State) (a : PlanRef) (f : Flit) (held : Bool) : State :=
  let e := a.2.2
  let out := pePort e
  let k := out / 4
  let vc := s.hopVc k (decide (out % 4 < 2)) out false (held && decide (peInPort e / 4 = k))
  let f := { f with slot := peSlot e, vc }
  let q := s.port out
  let d (x : Nat) : Nat := (x + 64 - peInSlot e) % 64
  let store := (s.leaves f).modPort out fun q => { q with transit := q.transit ++ [(peSlot e, a.1, a.2.1, { f with inp := none })] }
  match q.slotNow with
  | some n =>
    if n = peSlot e then s.sendSlot out a.1 a.2.1 (peFlits e) f
    else if d n < d (peSlot e) ∧ q.transit.length < 1024 then store
    else s.putFlit out { f with cred := true }
  | none => if q.transit.length < 1024 then store else s.putFlit out { f with cred := true }

/-- A scheduled flit that matches no entry: discarded at its destination, forwarded on credit elsewhere (R54, R432). -/
def State.unmatched (s : State) (p : Nat) (f : Flit) : State :=
  if f.dest = s.dev.id.toNat then
    let s := s.leaves f
    if s.links.unmatched.contains (p, f.slot) then s
    else (({ s with links := { s.links with unmatched := s.links.unmatched ++ [(p, f.slot)] } } : State).log (srcPort p) 0x03 f.part
      (w32 p) (w32 f.slot) (w32 f.dest))
  else s.forwardFlit p f

/-- A SLOT_DATA or SLOT_END flit (R431, R432). -/
def State.slotFlit (s : State) (port : Port4) (h : FlitHdr) (payload : List Byte) (last : Bool) : State :=
  let p := port.toNat
  if payload.length = 0 ∨ 240 < payload.length then s.modPort p fun q => if q.live && s.clocked then { q with nakSent := true } else q
  else s.receive p h 1 fun s =>
    let f : Flit := { kind := if last then 6 else 5, vc := h.vc.toNat % 2, cred := false, poison := h.poison, dest := h.dest.toNat
                      src := h.src.toNat, slot := h.slot.toNat, part := h.part.toNat, payload
                      inp := if h.cred then some (p, h.vc.toNat) else none }
    match s.matching p h.slot.toNat h.dest.toNat with
    | [] => s.unmatched p f
    | a :: others =>
      let s := s.multiHit a others
      if peKind a.2.2 = 1 then s.transitFlit a f (bit h.vc 0) else (s.leaves f).receiveSlot a payload h.poison last

/-- SLOT_DATA (R431). -/
def execSlotData (port : Port4) (h : FlitHdr) (payload : List Byte) (s : State) : Out := .next (s.slotFlit port h payload false)
/-- SLOT_END (R320). -/
def execSlotEnd (port : Port4) (h : FlitHdr) (payload : List Byte) (s : State) : Out := .next (s.slotFlit port h payload true)

/-! ### Training (R425, R426) -/

/-- A flit of the replay buffer or the queue that R428 refuses at its new peer: the request it begins fails or is answered,
and a response is dropped. -/
def State.refuseFlit (s : State) (p : Nat) (f : Flit) : State :=
  if f.kind ≠ 1 ∧ f.kind ≠ 4 then s else
    let w (i : Nat) : Word := w32 (leNat ((f.payload.drop (4 * i)).take 4))
    let m : OutMsg := { mop := wfld (w 0) 3 0, dev := f.dest, part := f.part, w0 := w 0, w1 := w 1, w2 := w 2, w3 := w 3, src := some f.src }
    if isRsp m.mop then s
    else if f.src = s.dev.id.toNat then s.ackFor p (wfld m.w0 21 15) (wfld m.w0 27 22) 4
    else s.emit (ackOf m s.dev.id.toNat 4)

/-- Whether a destination lies strictly between this device and the peer of a port (R428). -/
def State.bypassed (s : State) (p dest : Nat) : Bool :=
  match (s.port p).peer with
  | none => false
  | some t =>
    let k := p / 4
    let me := coord s.dev.id.toNat k
    let n := (s.dim k).size
    let dist (x : Nat) : Nat := if p % 4 < 2 then ahead n me x else ahead n x me
    decide (0 < dist (coord dest k)) && decide (dist (coord dest k) < dist (coord t.peerId.toNat k))

/-- LINK_UP of a port (R425). -/
def State.linkUp (s : State) (p : Nat) : State :=
  let q := s.port p
  match q.peer with
  | none => s
  | some t => s.logAll (srcPort p) 0x20 (w32 (p + q.rate * 256)) (w32 t.peerId.toNat) (w32 t.peerPort.toNat)

/-- Credits of a port that requests served on chip hold for their answers, by virtual channel (R386). -/
def State.heldCredits (s : State) (p : Nat) : Tab Nat :=
  (allPorts.flatMap fun q => (s.port q).serving).foldl (fun (t : Tab Nat) v =>
    if v.out = p then tset 0 t v.vc (tget 0 t v.vc + v.paid) else t) []

/-- A port reaches ACTIVE: from a retrain with its numbers kept (R436), else with numbers from 0 and full credits but for those that
answers hold, and the flits that were not acknowledged go out again, but for those that the new peer cannot carry (R440). -/
def State.activate (s : State) (p : Nat) : State :=
  let q := s.port p
  let s := if q.retrain then s.modPort p fun q => { q with st := .active, retrain := false, fails := 0 }
    else
      let all := q.replay ++ q.queue
      let s := s.modPort p fun q =>
        { q with st := .active, fails := 0, txSeq := 0, rxSeq := 0, replay := [], sends := 0, nakSent := false, used := s.heldCredits p, owed := []
                 queue := (all.filter fun f => !s.bypassed p f.dest).map fun f => { f with paid := false } }
      (all.filter fun f => s.bypassed p f.dest).foldl (fun (s : State) f => s.refuseFlit p f) s
  (((s.pumpPort p id).linkUp p).forwardHeld).serveWaiting

/-- Steps from this device to the peer of a port, in the direction that the port faces (R426). -/
def State.peerDist (s : State) (p : Nat) (t : TrainInfo) : Nat :=
  let k := p / 4
  let n := (s.dim k).size
  let me := coord s.dev.id.toNat k
  let onto := coord t.peerId.toNat k
  if p % 4 < 2 then ahead n me onto else ahead n onto me

/-- What CHECK finds (R426). -/
inductive WireCheck where
  | pass | miswired | broken
  deriving DecidableEq, Repr

/-- The sizes of the torus as TRAIN states them. -/
def State.ownSizes (s : State) : Nat := ([0, 1, 2, 3].map fun k => ((s.dim k).size - 1) * 8 ^ k).sum

/-- CHECK of a port against what its peer states (R426). -/
def State.wireCheck (s : State) (p : Nat) (t : TrainInfo) : WireCheck :=
  let k := p / 4
  let d := s.dim k
  let me := s.dev.id.toNat
  let you := t.peerId.toNat
  let dist := s.peerDist p t
  let gapAt := if p % 4 < 2 then ahead d.size (coord me k) d.gap else ahead d.size (coord you k) d.gap
  if t.peerPort.toNat ≠ p ^^^ 2 ∨ ([0, 1, 2, 3].any fun j => j ≠ k && coord me j ≠ coord you j) ∨
      coord me k = coord you k ∨ t.sizes.toNat ≠ s.ownSizes ∨ dist = 0 then .miswired
  else if 4 ≤ dist then .broken
  else if d.isLine && decide (gapAt < dist) then .miswired
  else .pass

/-- TRAIN (R425): the exchange of IDENTIFY. -/
def execTrain (port : Port4) (t : TrainInfo) (s : State) : Out :=
  let p := port.toNat
  .next (if s.clocked && (s.port p).st = .identify then s.modPort p fun q => { q with peer := some t } else s)

/-- LINK_TRAINING_STEP (R425): the present step of a port completes. IDENTIFY needs the peer's TRAIN block, and MEASURE its
16 TIMING exchanges. The bypass opens when a port begins its training (R421). -/
def execLinkTrainingStep (port : Port4) (s : State) : Out :=
  let p := port.toNat
  let q := s.port p
  .next (if !s.clocked then s else match q.st with
    | .detect =>
      let s := s.modPort p fun q => { q with st := .identify, peer := none }
      { s with links := { s.links with closed := false } }
    | .identify => if q.peer.isSome then s.modPort p fun q => { q with st := .check } else s
    | .check =>
      match q.peer with
      | none => s
      | some t =>
        match s.wireCheck p t with
        | .pass =>
          s.modPort p fun q =>
            { q with st := .equalise, rate := max (max (s.peerDist p t - 1) (min 2 (wfld s.links.maxrate (2 * p + 1) (2 * p)))) (min 2 t.maxRate.toNat) }
        | .miswired => (s.modPort p fun q => { q with st := .barred }).logAll (srcPort p) 0x24 (w32 p) (w32 t.peerId.toNat) (w32 t.peerPort.toNat)
        | .broken => (s.modPort p fun q => { q with st := .barred }).logAll (srcPort p) 0x25 (w32 p) 0 0
    | .equalise => s.modPort p fun q => { q with st := .lock }
    | .lock => s.modPort p fun q => { q with st := .measure, timings := 0, asked := none }
    | .measure => if 16 ≤ q.timings then s.activate p else s
    | .off | .active | .waiting | .barred => s)

/-- The number of a training step (R425). -/
def LinkSt.step : LinkSt → Nat
  | .detect => 0 | .identify => 1 | .check => 2 | .equalise => 3 | .lock => 4 | .measure => 5 | .active => 6
  | .off | .waiting | .barred => 0

/-- LINK_TRAIN_TIMEOUT (R425): a step with a limit exceeds it, or LOCK fails. -/
def execLinkTrainTimeout (port : Port4) (s : State) : Out :=
  let p := port.toNat
  let q := s.port p
  let k := q.st.step
  .next (if !s.clocked || k = 0 || k = 6 then s else
    let n := q.fails + 1
    let s := s.modPort p fun q => { q with st := .waiting, retrain := false, planOn := false, fails := n }
    if 3 ≤ n ∧ (n - 3) % 8 = 0 then s.logAll (srcPort p) 0x23 (w32 p) (w32 k) 0 else s)

/-- LINK_TRAIN_RETRY (R425): 1 ms after a failure the port is back in DETECT. -/
def execLinkTrainRetry (port : Port4) (s : State) : Out :=
  .next (if s.clocked && (s.port port.toNat).st = .waiting then s.modPort port.toNat fun q => { q with st := .detect } else s)

/-! ### Latency (R44, R411) -/

/-- LATENCY_MEASURE (R44): a TIMING_REQ leaves with the present time. -/
def execLatencyMeasure (port : Port4) (now : Word) (s : State) : Out :=
  let p := port.toNat
  .next (if s.clocked && ((s.port p).live || (s.port p).st = .measure) then s.modPort p fun q => { q with asked := some now } else s)

/-- TIMING_REQ (R411): answered by a TIMING_RSP with the echoed timestamp and the turnaround. -/
def execTimingReq (port : Port4) (ts turnaround : Word) (s : State) : Out :=
  let p := port.toNat
  .next (if s.clocked && ((s.port p).live || (s.port p).st = .measure) then
    s.modPort p fun q => { q with ctl := q.ctl ++ [(ts, turnaround)] } else s)

/-- TIMING_RSP (R411, R44): the round trip is the time since the request, less the turnaround; of several exchanges the last one
counts (DESIGN CHOICE, log 106). -/
def execTimingRsp (port : Port4) (ts turnaround now : Word) (s : State) : Out :=
  let p := port.toNat
  .next (if s.clocked && ((s.port p).live || (s.port p).st = .measure) && (s.port p).asked = some ts then
    s.modPort p fun q => { q with rtt := some (now - ts - turnaround).toNat, timings := q.timings + 1, asked := none } else s)

/-! ### Faults of a port -/

/-- LINK_MARGIN_CHECK (R436, R437): the port's margins are read; a bad one retrains, unless its parallel port does. -/
def execLinkMarginCheck (port : Port4) (berHigh : Bool) (margin uncorrectable : BitVec 8) (s : State) : Out :=
  let p := port.toNat
  .next (if !(s.clocked && (s.port p).live) then s else
    let s := s.modPort p fun q => { q with margin := margin.toNat, uncor := q.uncor + uncorrectable.toNat }
    let why : Option Nat :=
      if berHigh then some 1 else if margin.toNat < s.links.marginMin then some 2 else if 4 ≤ uncorrectable.toNat then some 3 else none
    match why with
    | none => s
    | some w =>
      if !s.links.retrainEn || (s.port (p ^^^ 1)).retrain then s
      else (s.modPort p fun q => { q with st := .equalise, retrain := true, planOn := false }).logAll (srcPort p) 0x22 (w32 p) (w32 w) 0)

/-- Port `p` is declared down for a case of R442; the third time within 2^20 strokes is permanent (R635). -/
def State.portDown (s : State) (p why : Nat) : State :=
  let downs := ((s.port p).downs.filter fun t => s.now < t + 2 ^ 20) ++ [s.now]
  let s := (s.modPort p fun q => { q with st := .detect, planOn := false, downs, slotNow := none }).logAll (srcPort p) 0x21 (w32 p) (w32 why) 0
  if 3 ≤ downs.length then
    (s.modPort p fun q => { q with st := .off, dead := true }).logAll srcForeman 0x8D (w32 p) 0 0 2
  else s

/-- LINK_DOWN (R442): a port goes down for case 1, 2 or 3. -/
def execLinkDown (port : Port4) (cause : BitVec 2) (s : State) : Out :=
  let p := port.toNat
  let q := s.port p
  let due : Bool := match cause.toNat with
    | 1 => true
    | 2 => !q.replay.isEmpty
    | 3 => decide (16 ≤ q.sends)
    | _ => false
  .next (if s.clocked && q.live && due then s.portDown p cause.toNat else s)

/-- MSG_TIMEOUT (R443): no response for 131.072 µs. A PUT or GET is sent once more; anything else ends with status 4. -/
def execMsgTimeout (b : Bench7) (tag : BitVec 6) (s : State) : Out :=
  let k := b.toNat
  let t := tag.toNat
  .next (if !s.alive then s else
    match s.farAsk k t with
    | none => s
    | some (o, x, r) => match r.place with
      | .remote d tb off =>
        let s := s.log (srcBench k) 0x16 x.part (w32 d) (w32 t) (w32 (x.mop o.write))
        let fails := (s.failRun k t o.write o.run 4).advance k
        if x.mop o.write < 2 ∧ x.tries = 0 then
          ((s.modXfer k t fun x => { x with tries := 1 }).routeOut (farMsg k x o.write r d tb off) none).getD fails
        else fails
      | _ => s)

/-- BYPASS_PUMP (R628): the pump leaves -1.0 V ± 0.2 V; every bypass closes and every port retrains. -/
def execBypassPump (mv : Int) (s : State) : Out :=
  .next (if !s.clocked || (decide (-1200 ≤ mv) && decide (mv ≤ -800)) then s else
    let s := allPorts.foldl (fun (s : State) p => s.modPort p fun q =>
      if q.st = .off ∨ q.st = .barred then q else { q with st := .detect, retrain := false, planOn := false, slotNow := none }) s
    ({ s with links := { s.links with closed := true } } : State).logAll srcForeman 0x94 (BitVec.ofInt 32 mv) 0 0)

end Sys2Proof.Machine
end

