-- ==== Sys2Proof/Machine/Regs.lean ====
section
/-! DEFINITION. Writes of registers over the Control Bus (R455 to R457, R489 to R492): partition configuration (R511 to
R516), the tenant window (R518 to R526), and tick control (R37). -/

namespace Sys2Proof.Machine

/-- The Control Bus serves registers: from the end of the clear on, and not while clamped (R457, R664, R679). -/
def State.cbOpen (s : State) : Bool :=
  !s.dev.clamped && (s.dev.phase = .planes || s.dev.phase = .boot || s.dev.phase = .running)

/-- The response of an access. -/
def State.respond (s : State) (code : Nat) (data : Word) : State := { s with glb := { s.glb with resp := (code, data) } }

/-- A write over the Control Bus: OK with its effect, BUSY, or no answer without power (R457, R664, R679). -/
def State.cb (s : State) (f : State → State) : State :=
  if s.dev.phase = .unpowered then s
  else if s.cbOpen then (f s).respond 0 0 else s.respond 3 0

/-! ### Tick control (R37, R38) -/

/-- A write of GLB_TICK_CTL. -/
def State.wrTickCtl (s : State) (v : Word) : State :=
  let k := s.stroke
  let k' := if k.lock then k else
    { k with
      len := if 11 ≤ wfld v 3 0 ∧ wfld v 3 0 ≤ 17 then wfld v 3 0 else k.len
      role := if v.extractLsb' 4 2 = 3 then k.role else v.extractLsb' 4 2
      rank := v.extractLsb' 6 12 }
  let k' := { k' with planEn := bit v 18, lock := k.lock || bit v 31 }
  let k' := if !k.lock && k'.lock && k'.role != 0 then { k' with state := 1, listened := 0, lenLogged := false } else k'
  let s := { s with stroke := k' }
  if k'.len = k.len then s
  else allParts.foldl (fun (s : State) p => s.modTen p fun t => { t with plan := [], newPlans := [], planHits := [] }) s

/-- GLB_TICK_CTL (R37). -/
def execGlbTickCtl (v : Word) (s : State) : Out := .next (s.cb fun s => s.wrTickCtl v)

/-- GLB_TICK_COUNT_LO (R36): a read answers with the low word and latches the high one. -/
def execGlbTickCountLo (s : State) : Out :=
  .next (if s.dev.phase = .unpowered then s
    else if s.cbOpen then
      ({ s with stroke := { s.stroke with latch := w32 (s.now / 2 ^ 32) } } : State).respond 0 (w32 s.now)
    else s.respond 3 0)

/-! ### Cancellation (R572, R513) -/

/-- Whether bench `b` runs a task. -/
def Bench.hasTask (v : Bench) : Bool := [0, 1, 2, 3].any fun n => (v.ctx n).status != .empty

/-- A cancellation of partition `p` begins (R572): its tasks are stopped at the second boundary. -/
def State.cancelStart (s : State) (p : Nat) : State :=
  let s := (maskList (s.ten p).mask).foldl (fun (s : State) b => if (s.bench b).hasTask then s.setPend b 7 else s) s
  s.modTen p fun t =>
    { t with cancel := some (t.cancel.getD 2), cancelTo := t.cmdHead.toNat, cmds := t.cmds.map fun c => { c with cancelled := true } }

/-- The clear of a bench that has left a partition begins (R513). -/
def State.clearBench (s : State) (b : Nat) : State :=
  (s.modBench b fun v => { v with clearing := true, leaving := none, cancelIn := none, mailbox := [], patch := [] }).dropWaits b

/-- A bench leaves the mask of partition `p`: the RUN of each of its tasks is cancelled and names the bench (R513, R543), and it leaves
every wait list (R584). -/
def State.removeBench (s : State) (p b : Nat) : State :=
  let s := s.modTen p fun t =>
    { t with
      mask := maskSet t.mask b false
      cmds := t.cmds.map fun c => if c.op = 2 && c.live.getLsbD b then { c with cancelled := true, left := some (c.left.getD b) } else c }
  let s := s.dropWaits b
  let v := s.bench b
  if v.hasTask || !v.xfers.isEmpty || !v.streams.isEmpty then
    (s.modBench b fun v => { v with leaving := some p, cancelIn := some 2 }).setPend b 7
  else s.clearBench b

/-- Whether bench `b` may be granted (R513). -/
def State.grantable (s : State) (b : Nat) : Bool :=
  s.usable b && (s.partOf b).isNone && !(s.bench b).clearing && (s.bench b).leaving.isNone

/-- A write of item BENCHn of partition `p` (R513). -/
def State.wrBenches (s : State) (p n : Nat) (v : Word) : State :=
  (List.range 32).foldl (fun (s : State) i =>
    let b := 32 * n + i
    let now := (s.ten p).mask.getLsbD b
    if bit v i then
      if !now && s.grantable b then s.modTen p fun t => { t with mask := maskSet t.mask b true } else s
    else if now then s.removeBench p b else s) s

/-! ### Veneer ways (R343, R344, R515) -/

/-- A write of TEN_VENEER_WAYS of partition `p`: fills in progress for it serve what waits and are not installed (R367). -/
def State.wrWays (s : State) (p : Nat) (v : Word) : State :=
  let t := s.ten p
  let others : BitVec 16 := allParts.foldl (fun m q => if q = p then m else m ||| (s.ten q).ways) 0
  let want := v.extractLsb' 0 16 &&& t.waysAllowed
  let new := (want &&& ~~~others) ||| (want &&& t.ways)
  let hit := new ||| t.ways
  let s := (s.modTen p fun t => { t with ways := new, waysBusy := true, waysInv := t.waysInv ||| hit }).dropFills fun q _ => q = p
  { s with veneer := { s.veneer with lines := s.veneer.lines.filter fun e => !hit.getLsbD (e.1 % 16) } }

/-- TEN_VENEER_WAYS (R344). -/
def execTenVeneerWays (part : Part3) (v : Word) (s : State) : Out := .next (s.cb fun s => s.wrWays part.toNat v)

/-- VENEER_INVAL_DONE (R344): the invalidation has passed every set, and BUSY clears. -/
def execVeneerInvalDone (part : Part3) (s : State) : Out :=
  .next (if s.alive then s.modTen part.toNat fun t => { t with waysBusy := false, waysInv := 0 } else s)

/-! ### Partition configuration (R511 to R516) -/

/-- A write of GLB_PART_CFG. -/
def State.wrPartCfg (s : State) (v : Word) : State :=
  let p := s.glb.selPart
  let port := s.glb.selPort
  match s.glb.selItem with
  | 0 =>
    let was := (s.ten p).enable
    let s := s.modTen p fun t => { t with enable := bit v 0, secAllow := if s.secureOk then bit v 1 else t.secAllow }
    if was && !bit v 0 then s.cancelStart p else s
  | 1 =>
    let s := s.modTen p fun t => { t with waysAllowed := v.extractLsb' 0 16 }
    let t := s.ten p
    if t.ways &&& ~~~t.waysAllowed = 0 then s else s.wrWays p (zext (t.ways &&& t.waysAllowed))
  | 2 => s.wrBenches p 0 v
  | 3 => s.wrBenches p 1 v
  | 4 => s.wrBenches p 2 v
  | 5 => s.wrBenches p 3 v
  | 6 | 7 =>
    let hi := decide (s.glb.selItem = 7)
    let own (q : Nat) : BitVec 64 := tget 0 (s.ten q).slots port
    let taken : BitVec 64 := allParts.foldl (fun m q => if q = p then m else m ||| own q) 0
    let half : BitVec 64 := if hi then v.zeroExtend 64 <<< 32 else v.zeroExtend 64
    let keep : BitVec 64 := if hi then own p &&& 0xFFFFFFFF else own p &&& 0xFFFFFFFF00000000
    s.modTen p fun t => { t with slots := tset 0 t.slots port (keep ||| (half &&& ~~~taken)) }
  | _ => s

/-- A write of GLB_PART_CFG for rows that name its item. -/
def State.partCfgRow (s : State) (items : List Nat) (v : Word) : State :=
  if items.contains s.glb.selItem then s.cb fun s => s.wrPartCfg v else s

/-- PART_CFG_BENCH (R513): GLB_PART_CFG while an item BENCH0 to BENCH3 is selected. -/
def execPartCfgBench (v : Word) (s : State) : Out := .next (s.partCfgRow [2, 3, 4, 5] v)
/-- PART_CFG_SLOTS (R514). -/
def execPartCfgSlots (v : Word) (s : State) : Out := .next (s.partCfgRow [6, 7] v)
/-- PART_CFG_WAYS_ALLOWED (R515). -/
def execPartCfgWaysAllowed (v : Word) (s : State) : Out := .next (s.partCfgRow [1] v)
/-- PART_CFG_CONTROL (R516). -/
def execPartCfgControl (v : Word) (s : State) : Out := .next (s.partCfgRow [0] v)

/-- BENCH_CLEAR_DONE (R513, R359): the memories of a bench that has left a partition are zero. Transfers in flight end first. -/
def execBenchClearDone (b : Bench7) (s : State) : Out :=
  let k := b.toNat
  .next (if !(s.alive && (s.bench k).clearing && (s.bench k).xfers.isEmpty) then s
    else s.modBench k fun v =>
      { v with
        clearing := false, drawer := [], idrawer := [], ecc := [], boards := [], glue := {}, slots := [], spec := [], applied := {}
        scrubQ := [], unseen := [] })

/-! ### Control and racks of a window (R519, R520) -/

/-- The first failing check of R520 over racks given as (SIZELOG, BASE, alignment and entry size). -/
def rackCheck (l : List (Nat × Nat × Nat)) : Nat :=
  if l.any fun r => decide (r.1 < 3) || decide (16 < r.1) then errRACK
  else if l.any fun r => r.2.1 % r.2.2 != 0 then errALIGN
  else if l.any fun r => decide (2 ^ 52 < r.2.1 + 2 ^ r.1 * r.2.2) then errRANGE
  else 0

/-! ### The event log (R539 to R541), and halts (R486) -/

/-- The dispatcher halts partition `p`; HALT has no event of its own and receives its own number (R560). -/
def State.halt (s : State) (p why : Nat) : State :=
  ((s.modTen p fun t => { t with halted := true, haltWhy := why }).cause p 16).report { source := srcForeman, kind := .bare }

/-- The 32 bytes of an event-log entry (R540). -/
def logBytes (s : State) (seq : Word) (source : BitVec 8) (code p : Nat) (devwide : Bool) (i0 i1 i2 : Word) : List Byte :=
  leBytes 4 seq.toNat ++ leBytes 4 s.stroke.cycle ++ leBytes 8 s.now ++
    leBytes 4 (code + source.toNat * 2 ^ 16 + p * 2 ^ 24 + b2n devwide * 2 ^ 27) ++
    leBytes 4 i0.toNat ++ leBytes 4 i1.toNat ++ leBytes 4 i2.toNat

/-- Write an entry to the log of partition `p` (R539); a refused write halts the partition (R486). Entries of a log whose
write was refused are discarded until RESUME (R574). -/
def State.writeLog (s : State) (p : Nat) (bytes : List Byte) : State :=
  let t := s.ten p
  if !t.evlogEn || t.haltWhy = 3 then s else
    let (s, ok) := s.foremanWrite p (t.evBase + 32 * (t.evHead.toNat % 2 ^ t.evSize)) bytes false
    if ok then (s.modTen p fun t => { t with evHead := t.evHead + 1 }).cause p 2
    else (s.report { source := srcForeman, kind := .bare }).halt p 3

/-- Entries of start-up events go to the log of partition `p`, the first one enabled (R641, R665). -/
def State.lateLog (s : State) (p : Nat) : State :=
  let l := s.glb.late
  l.foldl (fun (s : State) e =>
    s.writeLog p (e.take 19 ++ [(e.getD 19 0) + BitVec.ofNat 8 p] ++ e.drop 20)) { s with glb := { s.glb with late := [] } }

/-- CMD_EN written (R520). -/
def Tenant.setCmdEn (t : Tenant) (v : Bool) : Tenant :=
  if v && !t.cmdEn then
    let e := rackCheck [(t.cmdSize, t.cmdBase, 64), (t.cplSize, t.cplBase, 16)]
    if e = 0 then { t with cmdEn := true, cmdHead := 0, cmdTail := 0, cplHead := 0, cplTail := 0 } else { t with cfgerr := e }
  else { t with cmdEn := v }

/-- EVLOG_EN written (R520). -/
def Tenant.setEvlogEn (t : Tenant) (v : Bool) : Tenant :=
  if v && !t.evlogEn then
    let e := rackCheck [(t.evSize, t.evBase, 32)]
    if e = 0 then { t with evlogEn := true, evHead := 0 } else { t with cfgerr := e }
  else { t with evlogEn := v }

/-- RESUME (R574). -/
def Tenant.resume (t : Tenant) : Tenant := { t with halted := false, haltWhy := 0 }

/-- A write of TEN_CTL (R519). -/
def State.wrTenCtl (s : State) (p : Nat) (v : Word) : State :=
  let was := (s.ten p).evlogEn
  let s := s.modTen p fun t => (t.setCmdEn (bit v 1)).setEvlogEn (bit v 0)
  let s := if !was && (s.ten p).evlogEn then s.lateLog p else s
  let s := if bit v 3 then s.cancelStart p else s
  if bit v 2 then s.modTen p Tenant.resume else s

/-- The enable bits of TEN_CTL as they stand. -/
def State.tenCtl (s : State) (p : Nat) : Word := w32 (b2n (s.ten p).cmdEn * 2 + b2n (s.ten p).evlogEn)

/-- CANCEL (R572): TEN_CTL.CANCEL written 1, the enables kept. -/
def execCancel (part : Part3) (s : State) : Out := .next (s.cb fun s => s.wrTenCtl part.toNat (s.tenCtl part.toNat ||| 8))
/-- RESUME (R574). -/
def execResume (part : Part3) (s : State) : Out := .next (s.cb fun s => s.wrTenCtl part.toNat (s.tenCtl part.toNat ||| 4))
/-- CMD_ENABLE (R520). -/
def execCmdEnable (part : Part3) (s : State) : Out := .next (s.cb fun s => s.wrTenCtl part.toNat (s.tenCtl part.toNat ||| 2))
/-- CMD_DISABLE (R520). -/
def execCmdDisable (part : Part3) (s : State) : Out := .next (s.cb fun s => s.wrTenCtl part.toNat (s.tenCtl part.toNat &&& 1))
/-- EVLOG_ENABLE (R520). -/
def execEvlogEnable (part : Part3) (s : State) : Out := .next (s.cb fun s => s.wrTenCtl part.toNat (s.tenCtl part.toNat ||| 1))
/-- EVLOG_DISABLE (R520). -/
def execEvlogDisable (part : Part3) (s : State) : Out := .next (s.cb fun s => s.wrTenCtl part.toNat (s.tenCtl part.toNat &&& 2))

/-- A doorbell or a mailbox GO meets Rest (R606, R609, R619): it withdraws a request, or wakes the device. -/
def State.unrest (s : State) (cause wake p : Nat) : State :=
  match s.dev.rest with
  | .awake => s
  | .requested =>
    (({ s with dev := { s.dev with rest := .awake } } : State).logAll srcForeman 0x49 (w32 cause) (w32 p) 0)
  | .resting => { s with dev := { s.dev with rest := .waking, wakeSrc := wake, wakePart := p } }
  | .waking => s

/-- A write of TEN_CMD_TAIL (R475, R528). -/
def State.wrTail (s : State) (p : Nat) (v : Word) : State :=
  let t := s.ten p
  if v = t.cmdTail then s
  else if t.cmdEn && decide ((v - t.cmdTail).toNat ≤ 2 ^ t.cmdSize) && decide ((v - t.cmdHead).toNat ≤ 2 ^ t.cmdSize) then
    (s.modTen p fun t => { t with cmdTail := v }).unrest 1 2 p
  else s.modTen p fun t => { t with cfgerr := errRANGE }

/-- DOORBELL (R475). -/
def execDoorbell (part : Part3) (v : Word) (s : State) : Out := .next (s.cb fun s => s.wrTail part.toNat v)

/-- A write of TEN_CPL_HEAD (R534). -/
def Tenant.wrCplHead (t : Tenant) (v : Word) : Tenant :=
  if (v - t.cplHead).toNat ≤ (t.cplTail - t.cplHead).toNat then { t with cplHead := v } else { t with cfgerr := errRANGE }

/-- TEN_CPL_HEAD (R534). -/
def execTenCplHead (part : Part3) (v : Word) (s : State) : Out := .next (s.cb fun s => s.modTen part.toNat fun t => t.wrCplHead v)

/-! ### Interrupts (R478, R479) -/

/-- A write of TEN_IRQ_STATUS or TEN_IRQ_MASK has happened: a message leaves when a cause is live. -/
def State.irqCheck (s : State) (p : Nat) : State := if (s.ten p).irqLive = 0 then s else s.irqSend p
/-- A write of TEN_IRQ_STATUS. -/
def State.wrIrqStatus (s : State) (p : Nat) (v : Word) : State :=
  (s.modTen p fun t => { t with irqStatus := t.irqStatus &&& ~~~(v.extractLsb' 0 5) }).irqCheck p
/-- A write of TEN_IRQ_MASK. -/
def State.wrIrqMask (s : State) (p : Nat) (v : Word) : State :=
  (s.modTen p fun t => { t with irqMask := v.extractLsb' 0 5 }).irqCheck p

/-- TEN_IRQ_STATUS (R479). -/
def execTenIrqStatus (part : Part3) (v : Word) (s : State) : Out := .next (s.cb fun s => s.wrIrqStatus part.toNat v)
/-- TEN_IRQ_MASK (R479). -/
def execTenIrqMask (part : Part3) (v : Word) (s : State) : Out := .next (s.cb fun s => s.wrIrqMask part.toNat v)

/-! ### Translation (R460, R461, R468) -/

/-- Invalidate translations of partition `p`: all, or those of a 2 MiB region (R468). -/
def State.xlatInval (s : State) (p : Nat) (region : Option Nat) : State :=
  let gone (k : Nat) (e : XEntry) : Bool :=
    decide (k / 128 = p) && match region with | none => true | some r => decide (e.va / 2 ^ 21 = r)
  let s := [0, 1, 2, 3].foldl (fun (s : State) m => s.modHpp m fun h =>
    { h with
      hits := h.hits.filter fun k => !((tfind h.xlat k.1).any (gone k.1)) && !((tfind h.xlat k.2).any (gone k.2))
      xlat := h.xlat.filter fun e => !gone e.1 e.2
      reqs := h.reqs.map fun r => if r.part = p then { r with old := true } else r }) s
  s.modTen p fun t => { t with invBusy := true }

/-- A write of TEN_XLAT_CTL. -/
def State.wrXlatCtl (s : State) (p : Nat) (v : Word) : State :=
  let t := s.ten p
  let span := wfld v 13 8
  let s := s.modTen p fun t =>
    { t with xen := bit v 0, xspan := if !t.xen && decide (30 ≤ span) && decide (span ≤ 52) then span else t.xspan }
  if t.xen && !bit v 0 then s.xlatInval p none else s

/-- TEN_XLAT_CTL (R460). -/
def execTenXlatCtl (part : Part3) (v : Word) (s : State) : Out := .next (s.cb fun s => s.wrXlatCtl part.toNat v)
/-- TEN_XLAT_INVAL (R468). -/
def execTenXlatInval (part : Part3) (v : Word) (s : State) : Out :=
  .next (s.cb fun s => s.xlatInval part.toNat (if bit v 0 then none else some (wfld v 31 1)))
/-- XLAT_INVAL_DONE (R468): every access that was translated before has its answer. -/
def execXlatInvalDone (part : Part3) (s : State) : Out :=
  let p := part.toNat
  .next (if s.alive && (s.ten p).invBusy && !([0, 1, 2, 3].any fun m => (s.hpp m).reqs.any fun r => r.part = p && r.old) then
    s.modTen p fun t => { t with invBusy := false } else s)

/-! ### Dowels (R525, R526) -/

/-- A write of TEN_DOWEL_DATA under an OP. -/
def State.wrDowelData (s : State) (p : Nat) (v : Word) : State :=
  let t := s.ten p
  let i := t.dowelIdx.toNat
  match t.dowelOp.toNat with
  | 1 => s.dowelAdd p i v
  | 2 => s.dowelTarget p i v
  | 3 => s.dowelClear p i
  | _ => s

/-- A write of TEN_DOWEL_DATA for the row of one OP. -/
def State.dowelRow (s : State) (p op : Nat) (v : Word) : State :=
  if (s.ten p).dowelOp.toNat = op then s.cb fun s => s.wrDowelData p v else s

/-- DOWEL_DATA_ADD (R526). -/
def execDowelDataAdd (part : Part3) (v : Word) (s : State) : Out := .next (s.dowelRow part.toNat 1 v)
/-- DOWEL_DATA_TARGET (R526). -/
def execDowelDataTarget (part : Part3) (v : Word) (s : State) : Out := .next (s.dowelRow part.toNat 2 v)
/-- DOWEL_DATA_CLEAR (R526). -/
def execDowelDataClear (part : Part3) (v : Word) (s : State) : Out := .next (s.dowelRow part.toNat 3 v)

/-! ### The window as a whole (R518) -/

/-- Replace bits 31:0 (low) or 51:32 (high) of an address, keeping the low bits of the low word that are reserved at 0. -/
def putLo (a : Nat) (v : Word) (low : Nat) : Nat := a / 2 ^ 32 * 2 ^ 32 + v.toNat / 2 ^ low * 2 ^ low
/-- Bits 51:32 of an address. -/
def putHi (a : Nat) (v : Word) : Nat := wfld v 19 0 * 2 ^ 32 + a % 2 ^ 32

/-- A write of an offset of window `p` (R518). -/
def State.wrTen (s : State) (p off : Nat) (v : Word) : State :=
  let md (f : Tenant → Tenant) : State := s.modTen p f
  match off with
  | 0x000 => s.wrTenCtl p v
  | 0x008 => md fun t => { t with rt := bit v 0 }
  | 0x00C => md fun t => if t.cmdEn then t else { t with cmdBase := putLo t.cmdBase v 6 }
  | 0x010 => md fun t => if t.cmdEn then t else { t with cmdBase := putHi t.cmdBase v }
  | 0x014 => md fun t => if t.cmdEn then t else { t with cmdSize := wfld v 4 0 }
  | 0x01C => s.wrTail p v
  | 0x020 => md fun t => if t.cmdEn then t else { t with cplBase := putLo t.cplBase v 4 }
  | 0x024 => md fun t => if t.cmdEn then t else { t with cplBase := putHi t.cplBase v }
  | 0x028 => md fun t => if t.cmdEn then t else { t with cplSize := wfld v 4 0 }
  | 0x02C => md fun t => t.wrCplHead v
  | 0x034 => md fun t => { t with irqAddr := putLo t.irqAddr v 0 }
  | 0x038 => md fun t => { t with irqAddr := putHi t.irqAddr v }
  | 0x03C => md fun t => { t with irqData := v }
  | 0x040 => s.wrIrqMask p v
  | 0x044 => s.wrIrqStatus p v
  | 0x048 => md fun t => if t.xen then t else { t with xroot := putLo t.xroot v 12 }
  | 0x04C => md fun t => if t.xen then t else { t with xroot := putHi t.xroot v }
  | 0x050 => s.wrXlatCtl p v
  | 0x054 => s.xlatInval p (if bit v 0 then none else some (wfld v 31 1))
  | 0x060 => md fun t => if bit v 31 then { t with faultInfo := t.faultInfo &&& 0x3FFFFFFF } else t
  | 0x074 => s.wrWays p v
  | 0x078 => md fun t => { t with preset := v.extractLsb' 0 2 }
  | 0x07C => md fun t => { t with missCount := 0 }
  | 0x080 => md fun t => { t with oob := 0 }
  | 0x084 => md fun t => if t.evlogEn then t else { t with evBase := putLo t.evBase v 5 }
  | 0x088 => md fun t => if t.evlogEn then t else { t with evBase := putHi t.evBase v }
  | 0x08C => md fun t => if t.evlogEn then t else { t with evSize := wfld v 4 0 }
  | 0x094 => md fun t => { t with dowelOp := v.extractLsb' 8 2, dowelIdx := v.extractLsb' 0 5 }
  | 0x098 => s.wrDowelData p v
  | _ => s

/-- What a read of an offset of window `p` returns (R518). -/
def State.rdTen (s : State) (p off : Nat) : Word :=
  let t := s.ten p
  let lo (a : Nat) : Word := w32 a
  let hi (a : Nat) : Word := w32 (a / 2 ^ 32)
  let n := t.cmds.length
  match off with
  | 0x000 => s.tenCtl p
  | 0x004 => w32 (n * 2 ^ 16 + t.cfgerr * 2 ^ 8 + t.haltWhy * 16 + b2n t.cancel.isSome * 8 + b2n t.halted * 4 +
      b2n (n = 0 && t.cmdHead = t.cmdTail) * 2 + b2n t.enable)
  | 0x008 => w32 (b2n t.rtActive * 256 + b2n t.rt)
  | 0x00C => lo t.cmdBase
  | 0x010 => hi t.cmdBase
  | 0x014 => w32 t.cmdSize
  | 0x018 => t.cmdHead
  | 0x01C => t.cmdTail
  | 0x020 => lo t.cplBase
  | 0x024 => hi t.cplBase
  | 0x028 => w32 t.cplSize
  | 0x02C => t.cplHead
  | 0x030 => t.cplTail
  | 0x034 => lo t.irqAddr
  | 0x038 => hi t.irqAddr
  | 0x03C => t.irqData
  | 0x040 => zext t.irqMask
  | 0x044 => zext t.irqStatus
  | 0x048 => lo t.xroot
  | 0x04C => hi t.xroot
  | 0x050 => w32 (b2n t.invBusy * 2 ^ 31 + t.xspan * 256 + b2n t.xen)
  | 0x058 => lo t.faultAddr
  | 0x05C => hi t.faultAddr
  | 0x060 => t.faultInfo
  | 0x064 => t.mask.extractLsb' 0 32
  | 0x068 => t.mask.extractLsb' 32 32
  | 0x06C => t.mask.extractLsb' 64 32
  | 0x070 => t.mask.extractLsb' 96 32
  | 0x074 => w32 (b2n t.waysBusy * 2 ^ 31 + t.ways.toNat)
  | 0x078 => w32 (t.presetActive.toNat * 256 + t.preset.toNat)
  | 0x07C => t.missCount
  | 0x080 => t.oob
  | 0x084 => lo t.evBase
  | 0x088 => hi t.evBase
  | 0x08C => w32 t.evSize
  | 0x090 => t.evHead
  | 0x094 => w32 (t.dowelOp.toNat * 256 + t.dowelIdx.toNat)
  | 0x098 =>
    let d := s.dowel (dowelNo p t.dowelIdx.toNat)
    if t.dowelOp = 2 then d.target else d.count
  | 0x09C => t.energy
  | _ => 0

end Sys2Proof.Machine
end

