-- ==== Sys2Proof/Machine/Dispatcher.lean ====
section
/-! DEFINITION. The dispatcher (R530 to R537, R564 to R574): the fetch of commands, their validation in the order of R532,
what each operation does, completions, and the event arbiter (R560, R561). -/

namespace Sys2Proof.Machine

/-- The dispatcher runs: the selected firmware is running and the device is awake (R661, R606). -/
def State.dispatching (s : State) : Bool := s.alive && s.dev.phase = .running

/-- COMMAND_FETCH (R564): one read of up to 16 commands of a partition. -/
def execCommandFetch (part : Part3) (s : State) : Out :=
  let p := part.toNat
  let t := s.ten p
  let n := min (min 16 (t.cmdTail - t.cmdHead).toNat) (64 - t.cmds.length)
  .next (if !(s.dispatching && s.dev.rest = .awake && t.enable && t.cmdEn && !t.halted && s.foremanModule.isSome) || n = 0 then s else
    let (s, got) := (List.range n).foldl (fun (acc : State × Option (List Cmd)) i =>
      match acc with
      | (s, none) => (s, none)
      | (s, some l) =>
        let c := (t.cmdHead + w32 i).toNat
        match s.foremanClean p (t.cmdBase + 64 * (c % 2 ^ t.cmdSize)) 64 with
        | (s, none) => (s, none)
        | (s, some bytes) => (s, some (l ++ [{ id := c, bytes }]))) (s, some [])
    match got with
    | none => s.halt p 1
    | some l => s.modTen p fun t => { t with cmds := t.cmds ++ l, cmdHead := t.cmdHead + w32 n })

/-! ### Validation (R532) -/

/-- ADDR of a command. -/
def Cmd.addr (c : Cmd) : Nat := Machine.fld (c.fld 0x18 8) 51 0
/-- COUNT. -/
def Cmd.count (c : Cmd) : Nat := c.fld 0x20 4
/-- OFFSET. -/
def Cmd.offset (c : Cmd) : Nat := c.fld 0x24 2
/-- CTX. -/
def Cmd.ctxN (c : Cmd) : Nat := Machine.fld (c.fld 0x24 4) 17 16
/-- MODE: supervisor. -/
def Cmd.super (c : Cmd) : Bool := bitN (c.fld 0x24 4) 18 = 1
/-- SEC. -/
def Cmd.sec (c : Cmd) : Bool := bitN (c.fld 0x24 4) 19 = 1
/-- RACKMASK. -/
def Cmd.rackMask (c : Cmd) : Nat := Machine.fld (c.fld 0x24 4) 23 20
/-- The racks that RACKMASK names. -/
def Cmd.racks (c : Cmd) : List Nat := [0, 1, 2, 3].filter fun r => bitN c.rackMask r = 1
/-- ACTIVATE. -/
def Cmd.activate (c : Cmd) : Nat := c.fld 0x28 8

/-- Step 1: reserved and unused fields, OP, the mode of a secure RUN, and the largest COUNT. -/
def Cmd.badFields (c : Cmd) : Bool :=
  let w24 := c.fld 0x24 4
  let uses (l : List Nat) : Bool := l.contains c.op
  Machine.fld (c.fld 0 4) 31 10 != 0 || decide (5 < c.op) || Machine.fld (c.fld 0x18 8) 63 52 != 0 || c.fld 0x30 16 != 0 ||
  (!uses [1, 2] && c.fld 8 16 != 0) || (!uses [1, 2, 3, 4] && c.addr != 0) || (!uses [1, 3, 4] && c.count != 0) ||
  (if c.op = 1 then Machine.fld w24 31 16 != 0 else if c.op = 2 then Machine.fld w24 31 24 != 0 else w24 != 0) ||
  (!uses [4] && c.activate != 0) || (c.op = 2 && c.sec && !c.super) || (uses [3, 4] && decide (4096 < c.count))

/-- A context of bench `b` that is not EMPTY, or that an earlier RUN has reserved (R565). -/
def State.ctxBusy (s : State) (p : Nat) (c : Cmd) (b : Nat) : Bool :=
  ((s.bench b).ctx c.ctxN).status != .empty ||
    (s.ten p).cmds.any fun d => d.id != c.id && d.stage = .reserved && d.op = 2 && d.ctxN = c.ctxN && d.bmask.getLsbD b

/-- Steps 1 to 6: the first error with its INDEX, or none. -/
def State.precheck (s : State) (p : Nat) (c : Cmd) : Option (Nat × Nat) :=
  let t := s.ten p
  let benches := maskList c.bmask
  let tgt := c.op = 1 ∨ c.op = 2
  let align (n : Nat) : Bool := c.addr % n != 0
  if c.badFields then some (errRANGE, 0)
  else if tgt ∧ c.bmask = 0 then some (errRANGE, 0)
  else if (tgt ∧ (benches.any fun b => !t.mask.getLsbD b || !s.usable b)) ∨ (c.op = 2 ∧ c.sec ∧ !(t.secAllow && s.secureOk)) then some (errPART, 0)
  else if (c.op = 1 ∧ (align 64 || c.offset % 64 != 0)) ∨ (c.op = 2 ∧ (align 32 || c.offset % 4 != 0)) ∨ ((c.op = 3 ∨ c.op = 4) ∧ align 8) then
    some (errALIGN, 0)
  else if c.op = 1 ∧ (c.count % 4 ≠ 0 ∨ 65536 < c.offset + c.count) then some (errLENGTH, 0)
  else if c.op = 2 then
    if benches.any fun b => s.ctxBusy p c b then some (errRANGE, 0)
    else match c.racks.find? fun r => benches.any fun b => ((s.bench b).rack r).enable with
      | some r => some (errRANGE, r)
      | none => none
  else none

/-- A rack as its 32-byte image configures it, words 0 and 1 (R288, R290). -/
def rackOf (img : List Byte) : Rack :=
  let w (i : Nat) : Word := w32 (leNat ((img.drop (4 * i)).take 4))
  ((({} : Rack).write0 (w 0)).fields (w 1))
/-- The ENABLE bit of an image. -/
def rackOn (img : List Byte) : Bool := bitN (leNat ((img.drop 4).take 4)) 31 = 1

/-- Step 7: the rack images of a RUN, or the rack that fails with its error. -/
def State.rackImages (s : State) (p : Nat) (c : Cmd) : State × Except (Nat × Nat) (List (Nat × List Byte)) :=
  c.racks.foldl (fun (acc : State × Except (Nat × Nat) (List (Nat × List Byte))) r =>
    match acc with
    | (s, .error e) => (s, .error e)
    | (s, .ok l) =>
      match s.foremanClean p (c.addr + 32 * r) 32 with
      | (s, none) => (s, .error (errRANGE, r))
      | (s, some img) =>
        let e := (rackOf img).check
        if rackOn img && e != 0 then (s, .error (e, r)) else (s, .ok (l ++ [(r, img)]))) (s, .ok [])

/-! ### Operations -/

/-- A command that fails validation completes INVALID. -/
def State.invalid (s : State) (p : Nat) (c : Cmd) (err index : Nat) : State := s.endCmd p c 2 err index 0

/-- The image of a LOAD, row by row: each row's bytes and poison; none when a read is refused. -/
def State.readImage (s : State) (p va n : Nat) : State × Option (List (List Byte × Bool)) :=
  (List.range (ceilDiv n 64)).foldl (fun (acc : State × Option (List (List Byte × Bool))) i =>
    match acc with
    | (s, none) => (s, none)
    | (s, some l) =>
      match s.foremanRead p (va + 64 * i) (min 64 (n - 64 * i)) .exec with
      | (s, .refused) => (s, none)
      | (s, .data d po) => (s, some (l ++ [(d, po)]))) (s, some [])

/-- LOAD (R531, R567, R338): the image into the instruction drawer of every bench of BMASK, dropping patch-buffer entries that it
covers. -/
def State.doLoad (s : State) (p : Nat) (c : Cmd) : State :=
  match s.readImage p c.addr c.count with
  | (s, none) => s.invalid p c errRANGE 0
  | (s, some rows) =>
    let s := (maskList c.bmask).foldl (fun (s : State) b => s.modBench b fun v =>
      let v := (rows.zipIdx).foldl (fun (v : Bench) (r : (List Byte × Bool) × Nat) => v.writeIdrawer (c.offset + 64 * r.2) r.1.1 r.1.2) v
      { v with patch := v.patch.filter fun e => !(decide (c.offset ≤ e.1) && decide (e.1 < c.offset + c.count)) }) s
    s.endCmd p c (b2n (rows.any fun r => r.2)) 0 0 0

/-- The context of a task that a RUN loads (R119, R531): READY at the boundary of R569. Registers that R119 does not name keep
what they hold (R98). -/
def taskCtx (p : Nat) (c : Cmd) (old : Ctx) : Ctx :=
  let x : Ctx := { old with
    status := .waiting, await := .start, pc := w32 (0x400000 + c.offset), regs := [], jstat := ({} : Ctx).jstat
    jmode := if c.sec then 4 else 0, lcnt := [], jien := 0, delay := none, modeShadow := none, deadline := false
    part := p, cmd := c.id, rackMask := BitVec.ofNat 4 c.rackMask }
  x.setMode (if c.super then mSuper else mUser)

/-- The Foreman configures a rack of a bench by the writes that code would make: word 0, then word 1 (R290). -/
def State.putRack (s : State) (b r : Nat) (img : List Byte) : State :=
  let w (i : Nat) : Word := w32 (leNat ((img.drop (4 * i)).take 4))
  let held := s.rackHeld b r
  s.modRack b r fun k => (k.write0 (w 0)).write1 held (w 1)

/-- A RUN starts: its racks and its contexts are written on every bench (R531, R569). -/
def State.startRun (s : State) (p : Nat) (c : Cmd) : State :=
  let s := (maskList c.bmask).foldl (fun (s : State) b =>
    let s := c.imgs.foldl (fun (s : State) (e : Nat × List Byte) => s.putRack b e.1 e.2) s
    s.modBench b fun v => (v.saveCtx c.ctxN).modCtx c.ctxN (taskCtx p c)) s
  s.modCmd p c.id fun c => { c with stage := .running, live := c.bmask }

/-- Seal the descriptor at `va` (R270, R271): an error, or none. Once step 8 passes, each pair of owner-table entries that
both match a block is logged once, OWNER_MULTI_HIT (R268). -/
def State.sealOne (s : State) (p va : Nat) : State × Option Nat :=
  if va % 64 ≠ 0 then (s, some errALIGN) else
    match s.foremanClean p va 128 with
    | (s, none) => (s, some errRANGE)
    | (s, some d) =>
      let t : TDesc := { d }
      match t.check1 ((s.ten p).mask &&& s.dev.usable) with
      | some e => (s, some e)
      | none =>
        let (s, full) : State × Option (List Byte) :=
          if t.dist = 2 ∧ t.otCount ≠ 0 then
            match s.foremanClean p t.otAddr (8 * t.otCount) with
            | (s, none) => (s, none)
            | (s, some e) => (s, some (d ++ e))
          else (s, some d)
        match full with
        | none => (s, some errRANGE)
        | some f =>
          let t : TDesc := { d := f }
          match t.check8 ([0, 1, 2, 3].map fun k => (s.dim k).size) with
          | some e => (s, some e)
          | none =>
            let s := if t.dist = 2 then
              t.multiHits.foldl (fun (s : State) (e : Nat × Nat) => s.log srcForeman 0x13 p (w32 e.1) (w32 e.2) 0) s else s
            match t.check9 with
            | some e => (s, some e)
            | none =>
              let w := wput (wput (w32 (bfld d 0x1C 4 31 0)) 18 16 p) 31 31 1
              let f := f.take 0x1C ++ leBytes 4 w.toNat ++ f.drop 0x20
              let code := Config.sealCode s.dev.epoch (({ d := f } : TDesc).sealedBytes) p
              let (s, ok) := s.foremanWrite p va ((f.take 0x7C) ++ leBytes 4 code.toNat)
              (s, if ok then none else some errRANGE)

/-- SEAL (R531): each listed descriptor in turn; the first failure ends the command. -/
def State.doSeal (s : State) (p : Nat) (c : Cmd) : State :=
  let (s, e) := (List.range c.count).foldl (fun (acc : State × Option (Nat × Nat)) i =>
    match acc with
    | (s, some e) => (s, some e)
    | (s, none) =>
      match s.foremanClean p (c.addr + 8 * i) 8 with
      | (s, none) => (s, some (errRANGE, i))
      | (s, some a) =>
        match s.sealOne p (leNat a) with
        | (s, some e) => (s, some (e, i))
        | (s, none) => (s, none)) (s, none)
  match e with
  | some (err, i) => s.invalid p c err i
  | none => s.endCmd p c 0 0 0 0

/-- The first check of R48 and R49 that a tick-plan entry of partition `p` fails, in the order of the table. -/
def State.entryCheck (s : State) (p : Nat) (e : DWord) : Option Nat :=
  let k := peKind e
  let orig := k = 0
  let own : Bool := (tget 0 (s.ten p).slots (peOwnPort e)).getLsbD (peOwnSlot e)
  if pfld e 63 60 ≠ 0 ∨ (orig ∧ peInSlot e ≠ 0) ∨ (orig ∧ peInPort e ≠ 0) then some errRANGE
  else if usableFlits s.stroke.len 0 < peFlits e then some errLENGTH
  else if k = 1 ∧ peRack e ≠ 0 then some errRANGE
  else if k = 1 ∧ peBench e ≠ 0 then some errRANGE
  else if (k = 0 ∨ k = 2) ∧ !(s.ten p).mask.getLsbD (peBench e) then some errPART
  else if k = 3 then some errRANGE
  else if pePart e ≠ p then some errPART
  else if k = 2 ∧ (pePort e ≠ 0 ∨ peSlot e ≠ 0) then some errRANGE
  else if !own then some errPART
  else none

/-- Whether a TRANSIT entry counts at the start of slot `t` (R433). -/
def transitAt (e : DWord) (t : Nat) : Bool :=
  decide ((t + 64 - peInSlot e) % 64 ≤ (peSlot e + 64 - peInSlot e) % 64)

/-- The flits that entries could hold in the transit store of a port at the start of slot `t` (R433). -/
def transitLoad (l : List DWord) (port t : Nat) : Nat :=
  ((l.filter fun e => peValid e && peKind e = 1 && pePort e = port && transitAt e t).map peFlits).sum

/-- The plan that a partition holds in stroke `n`: of its waiting plans for strokes up to `n`, the one for the latest, and of several
for one stroke the last loaded (R68). -/
def Tenant.planAt (t : Tenant) (n : Nat) : List DWord :=
  ((t.newPlans.filter fun e => e.1.toNat ≤ n).foldl (fun (acc : Nat × List DWord) e =>
    if acc.1 ≤ e.1.toNat then (e.1.toNat, e.2) else acc) (0, t.plan)).2

/-- The entries that the other partitions hold in stroke `n`. -/
def State.othersAt (s : State) (p n : Nat) : List DWord :=
  (allParts.filter fun q => q ≠ p).flatMap fun q => (s.ten q).planAt n

/-- The strokes from an activation on in which a plan of any partition comes into force. -/
def State.planStrokes (s : State) (n : Nat) : List Nat :=
  n :: ((allParts.flatMap fun q => (s.ten q).newPlans.map fun e => e.1.toNat).filter fun k => n < k)

/-- A plan of partition `p` for stroke `n` keeps the tick plan within 4,096 entries in every stroke to come (R48, R67). -/
def State.planFits (s : State) (p n : Nat) (l : List DWord) : Bool :=
  (s.planStrokes n).all fun k =>
    let own := (({ s.ten p with newPlans := (s.ten p).newPlans ++ [(BitVec.ofNat 64 n, l)] } : Tenant).planAt k).length
    decide ((s.othersAt p k).length + own ≤ 4096)

/-- The entries of a PLAN_LOAD, or the index of the first whose read was refused. -/
def State.readPlan (s : State) (p : Nat) (c : Cmd) : State × Except Nat (List DWord) :=
  (List.range c.count).foldl (fun (acc : State × Except Nat (List DWord)) i =>
    match acc with
    | (s, .error e) => (s, .error e)
    | (s, .ok l) =>
      match s.foremanClean p (c.addr + 8 * i) 8 with
      | (s, none) => (s, .error i)
      | (s, some b) => (s, .ok (l ++ [BitVec.ofNat 64 (leNat b)]))) (s, .ok [])

/-- PLAN_LOAD (R66 to R68, R87, R433). With COUNT 0 it completes as a no-op whatever LOCK holds (R67, R532; DESIGN CHOICE, log 108). -/
def State.doPlan (s : State) (p : Nat) (c : Cmd) : State :=
  if c.count = 0 then s.endCmd p c 0 0 0 0
  else if !s.stroke.lock then s.invalid p c errRANGE 0
  else match s.readPlan p c with
  | (s, .error i) => s.invalid p c errRANGE i
  | (s, .ok l) =>
    match (l.zipIdx).findSome? fun (e : DWord × Nat) => (s.entryCheck p e.1).map fun x => (x, e.2) with
    | some (e, i) => s.invalid p c e i
    | none =>
      let others := s.othersAt p c.activate
      if decide (c.activate ≤ s.now) || !s.planFits p c.activate l then s.invalid p c errRANGE 0
      else
        let excess := (List.range l.length).find? fun i =>
          let e := l.getD i 0
          peKind e = 1 && peValid e && (List.range 64).any fun t => transitAt e t &&
            decide (1024 < transitLoad (others ++ l.take (i + 1)) (pePort e) t)
        match excess with
        | some i => s.invalid p c errLENGTH i
        | none =>
          (s.modTen p fun t => { t with newPlans := t.newPlans ++ [(BitVec.ofNat 64 c.activate, l)] }).endCmd p c 0 0 0 0

/-- Whether a command may start: ORDER and BARRIER wait for every earlier command, and a CANCEL in progress starts nothing
that was fetched before it (R566, R572); a RUN waits until the plane runs of its benches have ended (R140, R364, R367). -/
def State.mayStart (s : State) (p : Nat) (c : Cmd) : Bool :=
  let t := s.ten p
  let first := match t.cmds.head? with | some d => d.id = c.id | none => false
  (!(c.order || c.op = 5) || first) && !(t.cancel.isSome && t.beforeCancel c) &&
    !(c.op = 2 && (maskList c.bmask).any fun b => (s.bench b).plane != .none || !(s.bench b).planeOk)

/-- A validated command starts. -/
def State.startCmd (s : State) (p : Nat) (c : Cmd) : State :=
  match c.op with
  | 1 => s.doLoad p c
  | 2 => s.startRun p c
  | 3 => s.doSeal p c
  | 4 => s.doPlan p c
  | _ => s.endCmd p c 0 0 0 0

/-- Validate a command (R532, R565); a valid one starts when it may, and waits otherwise. -/
def State.validate (s : State) (p : Nat) (c : Cmd) : State :=
  match s.precheck p c with
  | some (e, i) => s.invalid p c e i
  | none =>
    let (s, r) : State × Except (Nat × Nat) (List (Nat × List Byte)) := if c.op = 2 then s.rackImages p c else (s, .ok [])
    match r with
    | .error (e, i) => s.invalid p c e i
    | .ok imgs =>
      let c := { c with stage := .reserved, imgs }
      let s := s.modCmd p c.id fun _ => c
      if s.mayStart p c then s.startCmd p c else s

/-- The row of one OP: start the first command of that OP that waits and may start, or validate the partition's next
command when it has that OP (R565, R566). -/
def State.dispatch (s : State) (part : Part3) (ops : Nat → Bool) : State :=
  let p := part.toNat
  if !s.dispatching then s else
    match (s.ten p).cmds.find? fun c => c.stage = .reserved && ops c.op && s.mayStart p c with
    | some c => s.startCmd p c
    | none => match (s.ten p).cmds.find? fun c => c.stage = .fetched with
      | some c => if ops c.op then s.validate p c else s
      | none => s

/-- NOP (R531); a command with an unassigned OP is validated here too, and fails (R532). -/
def execNop (part : Part3) (s : State) : Out := .next (s.dispatch part fun op => op = 0 || decide (5 < op))
/-- LOAD (R531). -/
def execLoad (part : Part3) (s : State) : Out := .next (s.dispatch part fun op => op = 1)
/-- RUN (R531). -/
def execRun (part : Part3) (s : State) : Out := .next (s.dispatch part fun op => op = 2)
/-- SEAL (R270). -/
def execSeal (part : Part3) (s : State) : Out := .next (s.dispatch part fun op => op = 3)
/-- PLAN_LOAD (R66). -/
def execPlanLoad (part : Part3) (s : State) : Out := .next (s.dispatch part fun op => op = 4)
/-- BARRIER (R531). -/
def execBarrier (part : Part3) (s : State) : Out := .next (s.dispatch part fun op => op = 5)

/-! ### Completions (R534, R535, R571) -/

/-- The 16 bytes of a completion entry for count `n` (R535). -/
def Cpl.bytes (x : Cpl) (seq n : Word) (size : Nat) : List Byte :=
  leBytes 4 x.tag.toNat ++
    leBytes 4 (x.status + x.err * 2 ^ 8 + x.op * 2 ^ 16 + x.bench * 2 ^ 24 + (if n.toNat / 2 ^ size % 2 = 0 then 2 ^ 31 else 0)) ++
    leBytes 4 x.index ++ leBytes 4 seq.toNat

/-- COMPLETION_WRITE (R534, R571): the oldest completion, once it has its number and the rack has room. -/
def execCompletionWrite (part : Part3) (s : State) : Out :=
  let p := part.toNat
  let t := s.ten p
  .next (if !s.dispatching || t.haltWhy = 2 then s else
    match t.cpls with
    | [] => s
    | x :: rest => match x.seq with
      | none => s
      | some q =>
        if 2 ^ t.cplSize ≤ (t.cplTail - t.cplHead).toNat then s else
          let (s, ok) := s.foremanWrite p (t.cplBase + 16 * (t.cplTail.toNat % 2 ^ t.cplSize)) (x.bytes q t.cplTail t.cplSize)
          if ok then
            let s := s.modTen p fun t => { t with cpls := rest, cplTail := t.cplTail + 1 }
            if x.irq then s.cause p 1 else s
          else s.halt p 2)

/-! ### The event arbiter (R560, R561, R539 to R541) -/

/-- A start-up or plane event (R641, R665): FUSE_CRC, PLANE_FAIL, or the retirement that follows one. -/
def startEvent (code : Nat) (i1 : Word) : Bool := code = 0x93 || code = 0x92 || (code = 0x8E && i1 = 6)

/-- The arbiter accepts the `i`-th report that waits: it gives it the next number and writes its entries (R560). -/
def State.accept (s : State) (i : Nat) : State :=
  match s.reports[i]? with
  | none => s
  | some r =>
    let n := s.glb.seq + 1
    let s : State :=
      { s with reports := s.reports.eraseIdx i, glb := { s.glb with seq := n }
               dev := { s.dev with faults := s.dev.faults ||| w32 r.fault } }
    match r.kind with
    | .log code i0 i1 i2 (some p) => s.writeLog p (logBytes s n r.source code p false i0 i1 i2)
    | .log code i0 i1 i2 none =>
      let bytes (p : Nat) : List Byte := logBytes s n r.source code p true i0 i1 i2
      if startEvent code i1 && !(allParts.any fun p => (s.ten p).evlogEn) then { s with glb := { s.glb with late := s.glb.late ++ [bytes 0] } }
      else allParts.foldl (fun (s : State) p => s.writeLog p (bytes p)) s
    | .cpl p id => s.modTen p fun t => { t with cpls := t.cpls.map fun x => if x.id = id && x.seq.isNone then { x with seq := some n } else x }
    | .bare => s

/-- The arbiter accepts the reports that wait, oldest first: no report waits longer than 2 µs (R561). -/
def State.acceptAll (s : State) : State := s.reports.foldl (fun (s : State) _ => s.accept 0) s

/-- EVENT_ACCEPT (R560): the arbiter accepts the oldest report of a source. -/
def execEventAccept (source : BitVec 8) (s : State) : Out :=
  .next (if !s.alive then s else
    match s.reports.findIdx? fun r => r.source = source with
    | none => s
    | some i => s.accept i)

end Sys2Proof.Machine
end

