-- ==== Sys2Proof/Machine/Memory.lean ====
section
/-! DEFINITION. The on-chip memories: patrol scrubbing (R354, R355), verify reads (R633), the wipe of the secure region (R351, R352),
the plane engine (R361 to R365), tamper (R643, R644) and the lifecycle (R501, R646). -/

namespace Sys2Proof.Machine

/-! ### Scrubbing -/

/-- The code words of a bench memory, by site code (R348, R642): the applied-pattern register follows the slots (R248). The sizes of the
mailbox and the context store are the model's. -/
def siteWords (site : Nat) : Nat :=
  match site with
  | 0 => 2 ^ 19
  | 1 => 2 ^ 14
  | 2 => 0x16000 / 8
  | 3 => 542
  | 6 => 64
  | _ => 256

/-- A scrubber writes back the word `key` of bench `b` and verifies it (R354, R369, R633). A word with a permanent fault fails the
verify read, and its bench is retired (R635). `found`: the scrubber found the error itself and reports it. -/
def State.writeBack (s : State) (b site key : Nat) (found : Bool) : State :=
  let v := s.bench b
  let stuck := v.stuck.contains key
  match tget Ecc.ok v.ecc key with
  | .ok | .poison => s
  | .single =>
    let s := if found then s.corrected b site key else s
    let s := s.modBench b fun v => { v with ecc := tset .ok v.ecc key .ok, scrubQ := v.scrubQ.erase key }
    if stuck then
      (s.logAll (srcBench b) 0x80 (siteInfo b site) (w32 (keyAddr site key)) (w32 (tget 0 (s.bench b).corrN site))).retire b 1
    else s
  | .double =>
    let s := if found then s.uncorrectable b site key else s
    let s := s.modBench b fun v => { v with ecc := tset .ok v.ecc key .poison, scrubQ := v.scrubQ.erase key }
    if stuck then (s.logAll (srcBench b) 0x81 (siteInfo b site) (w32 (keyAddr site key)) 1).retire b 1 else s

/-- One step of the patrol scrubber of a bench memory: the next code word in ascending order (R354). -/
def State.patrolBench (s : State) (b site : Nat) : State :=
  if !s.usable b then s else
    let at_ := tget 0 (s.bench b).scrubAt site
    (s.modBench b fun v => { v with scrubAt := tset 0 v.scrubAt site ((at_ + 1) % siteWords site) }).writeBack b site (site * 2 ^ 24 + at_) true

/-- The `i`-th code word of a Veneer slice in ascending address order: way, then set, then word (R354, R682). -/
def veneerWord (slice i : Nat) (tags : Bool) : Nat :=
  if tags then vtag (vkey (slice * 2048 + i % 2048) (i / 2048)) else vdata (vkey (slice * 2048 + i / 16 % 2048) (i / 2 ^ 15)) (i % 16)

/-- One step of the patrol scrubber of a Veneer slice, of its data or of its tags (R354); the end of its data is the end of a pass
(R370; DESIGN CHOICE, log 69). -/
def State.patrolVeneer (s : State) (slice : Nat) (tags : Bool) : State :=
  let c := slice + (if tags then 16 else 0)
  let words := if tags then 2 ^ 15 else 2 ^ 19
  let at_ := tget 0 s.veneer.scrubAt c
  let s : State := { s with veneer := { s.veneer with scrubAt := tset 0 s.veneer.scrubAt c ((at_ + 1) % words) } }
  let s := s.veneerErr (veneerWord slice at_ tags)
  if at_ + 1 = words ∧ tags = false then
    { s with veneer := { s.veneer with passes := tset 0 s.veneer.passes slice (tget 0 s.veneer.passes slice + 1) } }
  else s

/-- PATROL_SCRUB (R354): a scrubber reads its next code word and corrects it. -/
def execPatrolScrub (site : MemSite) (s : State) : Out :=
  .next (if !s.clocked then s else match site with
    | .drawer b => s.patrolBench b.toNat 0
    | .idrawer b => s.patrolBench b.toNat 1
    | .boardFile b => s.patrolBench b.toNat 2
    | .slots b => s.patrolBench b.toNat 3
    | .mailbox b => s.patrolBench b.toNat 6
    | .context b => s.patrolBench b.toNat 7
    | .veneerData sl => s.patrolVeneer sl.toNat false
    | .veneerTags sl => s.patrolVeneer sl.toNat true)

/-- FORCED_SCRUB (R355): a quarter of a drawer, by bits 20:15 of its addresses, has been busy for 1,024 cycles: its scrubber takes a
port B cycle of a class, which is charged for it (R57), and reads the 16 code words of its next row. -/
def execForcedScrub (b : Bench7) (cls : SplitClass) (quarter : BitVec 6) (s : State) : Out :=
  let k := b.toNat
  let q := quarter.toNat
  .next (if !(s.clocked && s.usable k) then s
    else
      let row := tget 0 (s.bench k).scrubRow q
      let s := s.modBench k fun v => { v.charge cls 1 with scrubRow := tset 0 v.scrubRow q ((row + 1) % 512) }
      (List.range 16).foldl (fun (s : State) i =>
        if s.usable k then s.writeBack k siteDrawer (eccKey siteDrawer (64 * (512 * q + row) + 4 * i)) true else s) s)

/-- SCRUB_VERIFY (R633, R369): the oldest queued word of a bench is written back and read again. -/
def execScrubVerify (b : Bench7) (s : State) : Out :=
  let k := b.toNat
  .next (if !(s.clocked && s.usable k) then s else
    match (s.bench k).scrubQ with
    | [] => s
    | key :: _ => (s.writeBack k (key / 2 ^ 24) key false).modBench k fun v => { v with scrubQ := v.scrubQ.erase key })

/-! ### The wipe, tamper and the lifecycle -/

/-- Forced-stop every task with JMODE.SEC_EN = 1; their RUNs complete with FAULT (R644, R646). -/
def State.stopSecure (s : State) : State :=
  allBenches.foldl (fun (s : State) b => [0, 1, 2, 3].foldl (fun (s : State) n =>
    if ((s.bench b).ctx n).secEn then s.forceStop b n .fault else s) s) s

/-- The wipe of R352 runs for a trigger: secure contents of every bench are zeroed. Accesses to bank 15 wait until it ends, so
they find it done. -/
def State.startWipe (s : State) (trigger : Nat) : State :=
  let s := (s.benches.map (·.1)).foldl (fun (s : State) b => s.modBench b Bench.wipe) s
  { s with glb := { s.glb with wipe := some (s.glb.wipe.getD trigger) } }

/-- The code of a tamper source (R643). -/
def tamperCode : TamperSrc → Nat
  | .voltage => 1 | .clock => 2 | .temperature => 3 | .gpio _ => 4

/-- FUNC of a GPIO pin (R507). -/
def State.pinFunc (s : State) (n : Nat) : Nat := wfld s.glb.pinmux (4 * n + 2) (4 * n)

/-- A lifecycle advance is valid (R501). -/
def State.lifeOk (s : State) (v : Word) : Bool :=
  s.glb.lifeTo.isNone && s.dev.lifecycle != 3 && wfld v 23 16 = 0x5A && wfld v 9 8 = s.dev.lifecycle + 1

/-- A write of GLB_LIFECYCLE (R501, R646). -/
def State.wrLife (s : State) (v : Word) : State :=
  if s.lifeOk v then (s.stopSecure.startWipe 1 |> fun s => { s with glb := { s.glb with lifeTo := some (s.dev.lifecycle + 1) } }) else s

/-- LIFECYCLE_ADVANCE (R501). -/
def execLifecycleAdvance (v : Word) (s : State) : Out := .next (s.cb fun s => s.wrLife v)

/-- LIFECYCLE_DONE (R501): the fuse is programmed and, after the wipe, BUSY clears. -/
def execLifecycleDone (s : State) : Out :=
  .next (if !s.clocked || s.glb.wipe.isSome then s else
    match s.glb.lifeTo with
    | none => s
    | some n =>
      let old := s.dev.lifecycle
      let s : State :=
        { s with glb := { s.glb with lifeTo := none }
                 dev := { s.dev with lifecycle := n, fuses := tset 0 s.dev.fuses 8 (tget 0 s.dev.fuses 8 ||| w32 (2 ^ (n - 1))) } }
      s.logAll srcForeman 0x91 (w32 old) (w32 n) 0)

/-! ### The plane engine -/

/-- The benches that a run with the fields of a write tests (R363). -/
def State.planeSet (s : State) (mode : Nat) (all : Bool) (b : Nat) : List Nat :=
  if all then allBenches.filter fun k => s.usable k && (mode != 0 || (s.partOf k).isNone) else [b]

/-- A write with START = 1 is ignored whole (R363). -/
def State.planeRefused (s : State) (mode : Nat) (all : Bool) (b : Nat) : Bool :=
  s.glb.mbist.busy || decide (2 ≤ mode) || (!all && !s.usable b) || (mode = 0 && !all && (s.partOf b).isSome)

/-- A plane run starts on a list of benches (R363, R364). -/
def State.startPlanes (s : State) (l : List Nat) (preserving veneer : Bool) (mem : BitVec 4) : State :=
  let s := l.foldl (fun (s : State) b => s.modBench b fun v =>
    { v with plane := if preserving then (if v.hasTask then .waiting else .running true) else .running false }) s
  { s with glb := { s.glb with mbist := { s.glb.mbist with busy := true, veneer, runMem := mem } } }

/-- A write of GLB_MBIST_CTL (R362, R363). -/
def State.wrMbist (s : State) (v : Word) : State :=
  let mode := wfld v 26 25
  let all := bit v 24
  let b := wfld v 6 0
  let store (s : State) : State :=
    { s with glb := { s.glb with mbist := { s.glb.mbist with
        mode := if mode < 2 then mode else s.glb.mbist.mode, all, mem := v.extractLsb' 20 4, bench := b } } }
  if !bit v 31 then store s
  else if s.planeRefused mode all b then s
  else
    let veneer := bit v 23 && allParts.all fun p => (s.ten p).ways = 0
    (store s).startPlanes (s.planeSet mode all b) (mode = 1) veneer (v.extractLsb' 20 4)

/-- GLB_MBIST_CTL (R363). -/
def execGlbMbistCtl (v : Word) (s : State) : Out := .next (s.cb fun s => s.wrMbist v)

/-- PLANE_RUN_BEGIN (R364): a preserving run starts once every context of the bench is EMPTY. -/
def execPlaneRunBegin (b : Bench7) (s : State) : Out :=
  let k := b.toNat
  .next (if s.alive && (s.bench k).plane = .waiting && !(s.bench k).hasTask then s.modBench k fun v => { v with plane := .running true } else s)

/-- A bench's memories after a destructive run (R361, R364). -/
def Bench.planed (v : Bench) (mem : BitVec 4) : Bench :=
  let v := { v with ctxs := [], cur := none, flight := [] }
  let keep (site : Nat) (e : Nat × Ecc) : Bool := e.1 / 2 ^ 24 ≠ site
  let v := if mem.getLsbD 0 then { v with drawer := [], unseen := [], ecc := v.ecc.filter (keep siteDrawer) } else v
  let v := if mem.getLsbD 1 then { v with idrawer := [], ecc := v.ecc.filter (keep siteIdrawer) } else v
  if mem.getLsbD 2 then
    { v with boards := [], spec := [], glue := {}, slots := [], applied := {}, ecc := v.ecc.filter fun e => keep siteBoards e && keep siteSlots e }
  else v

/-- The memory of a failure is one that the run tests, on a bench that it tests. -/
def State.failsRun (s : State) (f : PlaneFail) : Bool :=
  match f.bench with
  | some b => (match (s.bench b.toNat).plane with | .running _ => true | _ => false) &&
      decide (20 ≤ f.mem.toNat) && s.glb.mbist.runMem.getLsbD (f.mem.toNat - 20)
  | none => s.glb.mbist.veneer

/-- A failure of a plane run: the bench is retired, or the slice leaves service (R365, R665, R642). -/
def State.planeFail (s : State) (f : PlaneFail) : State :=
  let k := match f.bench with | some b => b.toNat | none => 0x80
  let s := s.logAll (srcBench k) 0x92 (w32 k) (zext f.mem) f.addr 0x400
  match f.bench with
  | some b => s.retire b.toNat 6
  | none =>
    let sl := f.slice.toNat
    { s with veneer := { s.veneer with
        goneSlices := if s.veneer.goneSlices.contains sl then s.veneer.goneSlices else s.veneer.goneSlices ++ [sl] } }

end Sys2Proof.Machine
end

