-- ==== Sys2Proof/Machine/Power.lean ====
section
/-! DEFINITION. The Foreman's control of power and heat: column clocks and voltages (R595 to R599), power limiting (R600 to
R602), the thermal rules (R604, R621), the regulators' telemetry (R699 to R704, R720), and the fan (R590). -/

namespace Sys2Proof.Machine

/-- The Foreman works: from fuse load onward, not while clamped (R661). -/
def State.foremanUp (s : State) : Bool := s.clocked && s.dev.phase != .fuses

/-- The columns. -/
def allCols : List Nat := List.range 16
/-- The benches of a column. -/
def benchesOf (c : Nat) : List Nat := (List.range 8).map fun r => 16 * r + c

/-! ### The policy block (R592) -/

/-- SLACK_MARGIN. -/
def Foreman.margin (f : Foreman) : Nat := wfld f.policy0 15 0
/-- WINDOW_LOG. -/
def Foreman.windowLog (f : Foreman) : Nat := wfld f.policy0 19 16
/-- DVFS_EN. -/
def Foreman.dvfs (f : Foreman) : Bool := bit f.policy0 20
/-- PACE_EN. -/
def Foreman.paceEn (f : Foreman) : Bool := bit f.policy0 21
/-- LOG_STEPS. -/
def Foreman.logSteps (f : Foreman) : Bool := bit f.policy0 22
/-- THROTTLE_T. -/
def Foreman.throttleT (f : Foreman) : Nat := wfld f.policy1 7 0
/-- A policy block is valid (R592). -/
def policyOk (w0 w1 : Word) (rest : List Byte) : Bool :=
  decide (2 ≤ wfld w0 19 16) && decide (wfld w0 19 16 ≤ 10) && wfld w0 31 23 = 0 &&
    decide (85 ≤ wfld w1 7 0) && decide (wfld w1 7 0 ≤ 104) && wfld w1 31 8 = 0 && rest.all (· = 0)

/-! ### Voltages (R595, R630) -/

/-- The code of VTAB of column `c` at a FREQ: the line between the fused points that bracket it, rounded up (R630). -/
def State.vtab (s : State) (c f : Nat) : Nat :=
  let w := tget 0 s.dev.fuses (9 + c)
  let lo := wfld w 7 0
  let mid := wfld w 15 8
  let hi := wfld w 23 16
  if f ≤ 85 then ceilDiv (lo * (85 - f) + mid * (f - 60)) 25 else ceilDiv (mid * (110 - f) + hi * (f - 85)) 25

/-- The voltage of a column at a FREQ, in mV. -/
def State.voltAt (s : State) (c f : Nat) : Nat := 500 + 2 * s.vtab c f + (s.col c).gb

/-- The VOLT code of a voltage (R613). -/
def voltCode (mv : Nat) : Nat := (mv - 500) / 2

/-- Column cycles of a stroke at a FREQ (R35). -/
def State.strokeCycles (s : State) (f : Nat) : Nat := 2 ^ s.stroke.len * f / 100

/-- The cycle of the present stroke by which a change of voltage has settled: ΔV at 10 mV per µs, and 1 µs (R598). -/
def State.settleAt (s : State) (old new : Nat) : Nat := s.stroke.cycle + 200 * (max old new - min old new) + 2000

/-! ### Clock decisions (R596 to R598) -/

/-- The clock that the loops allow a column: the least of the slack result, the power cap and the thermal cap, within FMIN and
FMAX; only a trip goes below FMIN (R597). -/
def State.allowed (s : State) (c : Nat) : Nat :=
  let k := s.col c
  let g := s.glb
  let loop := if s.foreman.dvfs then k.loopFreq else g.fmax
  let cool := min g.fmax (min loop (k.pcap.getD g.fmax))
  if k.tripped then min (max g.fmin cool) (k.tcap.getD g.fmax) else max g.fmin (min cool (k.tcap.getD g.fmax))

/-- The same, held one step lower where the voltage would exceed 0.85 V (R595). -/
def State.fitting (s : State) (c : Nat) : Nat :=
  let f := s.allowed c
  if 850 < s.voltAt c f then f - 1 else f

/-- Command the voltage of a column's decided clock: at once for a rise, after the clock for a fall (R598). A column whose
telemetry is lost waits (R720). -/
def State.commandCol (s : State) (c : Nat) : State :=
  let k := s.col c
  if k.lost || !k.vrcOn || k.target < k.freq then s else
    let v := s.voltAt c k.target
    if v = k.mv then s else
      let t := s.settleAt k.mv v
      s.modCol c fun k => { k with mv := v, settle := t }

/-- Decide the clock of a column anew; a step is a decision of the Foreman (R593, R594). -/
def State.decideCol (s : State) (c : Nat) : State :=
  let f := s.fitting c
  if f = (s.col c).target then s.commandCol c
  else
    let s := s.modCol c fun k => { k with target := f }
    let s := if s.foreman.logSteps then s.logAll srcForeman 0x40 (w32 c) (w32 f) (w32 (voltCode (s.voltAt c f)))
      else s.report { source := srcForeman, kind := .bare }
    s.commandCol c

/-- Decide every column anew. -/
def State.decideAll (s : State) : State := allCols.foldl (fun (s : State) c => s.decideCol c) s

/-- A boundary: a fall takes effect and its voltage follows; a rise takes effect once its voltage has settled (R598). `span`:
the cycles of the stroke that has ended. -/
def State.clockEdge (s : State) (c span : Nat) : State :=
  let s := s.modCol c fun k => { k with settle := k.settle - span }
  let k := s.col c
  if k.lost then s
  else if k.target < k.freq then (s.modCol c fun k => { k with freq := k.target }).commandCol c
  else if k.freq < k.target ∧ k.settle = 0 then s.modCol c fun k => { k with freq := k.target }
  else s

/-! ### The window (R596, R599, R604) -/

/-- The slack result of a column for a window (R596): its FREQ, and the windows for which it is not lowered. -/
def State.slackStep (s : State) (c : Nat) (w : Window) : Nat × Nat :=
  let k := s.col c
  let m := s.foreman.margin + 128
  let d := ceilDiv (2 ^ s.stroke.len) 100
  if w.stopped then (s.glb.fmax, 64)
  else match w.slack with
    | none => (s.glb.fmin, k.hold - 1)
    | some x =>
      (if x < m then k.target + 1
       else if (m + 2 * d : Int) ≤ x ∧ k.hold = 0 then k.target - 1
       else k.target, k.hold - 1)

/-- The guard band after a window: its value and the calm windows (R599). -/
def Column.guard (k : Column) (w : Window) : Nat × Nat :=
  let low (n : Int) : Bool := match w.droop with | none => false | some d => decide (d < n)
  if low 10 then (min 30 (k.gb + 6), 0)
  else if low 25 then (k.gb, 0)
  else if 63 ≤ k.calm then (k.gb - 6, 0)
  else (k.gb, k.calm + 1)

/-- The thermal cap rises one step per window while every sensor is cool; when no cap remains, throttling ends (R604). -/
def State.warmUp (s : State) (c : Nat) : State :=
  match (s.col c).tcap with
  | none => s
  | some f =>
    if !s.foreman.cool then s else
      let g := s.glb
      let s := s.modCol c fun k =>
        { k with tcap := if g.fmax ≤ f + 1 then none else some (f + 1), tripped := k.tripped && decide (f + 1 < g.fmin) }
      if s.glb.throttle && !(allCols.any fun c => (s.col c).tcap.isSome) then
        ({ s with glb := { s.glb with throttle := false } } : State).logAll srcForeman 0x44 0 (w32 s.glb.sensor) (s.glb.tmax.signExtend 32)
      else s

/-- COLUMN_EVALUATION (R596, R599, R604): a column at the end of a window. -/
def execColumnEvaluation (col : Col4) (s : State) : Out :=
  let c := col.toNat
  .next (if !s.foremanUp then s else
    match (s.col c).ended with
    | none => s
    | some w =>
      let (f, hold) := s.slackStep c w
      let old := (s.col c).target
      let s := if w.stopped && s.foreman.dvfs then s.logAll srcForeman 0x41 (w32 c) (w32 old) 0 else s
      let (gb, calm) := (s.col c).guard w
      let s := if gb = (s.col c).gb then s else s.logAll srcForeman 0x46 (w32 c) (w32 gb) 0
      let s := s.modCol c fun k => { k with loopFreq := f, hold, gb, calm, last := w, ended := none }
      (s.warmUp c).decideCol c)

/-! ### Power (R600 to R602) -/

/-- The average device power of the last 100 µs, in mW (R600). -/
def Foreman.avg (f : Foreman) : Nat := f.samples.sum / f.samples.length

/-- Set the pace level (R601). -/
def State.setPace (s : State) (n : Nat) : State :=
  if n = s.foreman.pace then s else
    ({ s with foreman := { s.foreman with pace := n } } : State).logAll srcForeman 0x42 (w32 n) (w32 (s.foreman.avg / 1000)) 0

/-- Column `a` has more slack than column `b`, each relative to its stroke; a column without a slack value has most. -/
def State.slacker (s : State) (a b : Nat) : Bool :=
  match (s.col a).last.slack, (s.col b).last.slack with
  | _, none => false
  | none, some _ => true
  | some x, some y => decide (y * s.strokeCycles (s.col a).freq < x * s.strokeCycles (s.col b).freq)

/-- Step 3 of R600. -/
def State.unmet (s : State) : State :=
  let due : Bool := match s.foreman.unmetAt with | none => true | some t => decide (t + 1024 ≤ s.now)
  if due then
    ({ s with foreman := { s.foreman with unmetAt := some s.now } } : State).logAll srcForeman 0x43
      (w32 (s.foreman.avg / 1000)) (w32 s.glb.plimit) 0
  else s

/-- One action against too much power (R600). -/
def State.limitPower (s : State) : State :=
  match allCols.filter fun c => decide (s.glb.fmin < (s.col c).target) with
  | c :: rest =>
    let k := rest.foldl (fun k c => if s.slacker c k then c else k) c
    (s.modCol k fun v => { v with pcap := some (v.target - 1) }).decideCol k
  | [] => if s.foreman.paceEn && decide (s.foreman.pace < 15) then s.setPace (s.foreman.pace + 1) else s.unmet

/-- POWER_LOOP (R600): a sample of device power every 10 µs, and an action while the average exceeds PLIMIT. -/
def execPowerLoop (milliwatts : Nat) (s : State) : Out :=
  .next (if !s.foremanUp then s else
    let l := s.foreman.samples ++ [milliwatts]
    let s : State := { s with foreman := { s.foreman with samples := l.drop (l.length - 10), energy := s.foreman.energy + milliwatts } }
    if s.glb.plimit * 1000 < s.foreman.avg then s.limitPower else s)

/-- The column whose power cap is lowest. -/
def State.capped (s : State) : Option Nat :=
  allCols.foldl (fun (best : Option Nat) c =>
    match (s.col c).pcap with
    | none => best
    | some f => match best with
      | none => some c
      | some b => if f < (s.col b).pcap.getD 0 then some c else best) none

/-- POWER_RELEASE (R602): while the average stays below PLIMIT - 5 W, the pace falls by one level, or one power cap by one step. -/
def execPowerRelease (s : State) : Out :=
  .next (if !s.foremanUp || decide (s.glb.plimit * 1000 ≤ s.foreman.avg + 5000) then s
    else if s.foreman.pace ≠ 0 then (if s.foreman.tripPace then s else s.setPace (s.foreman.pace - 1))
    else match s.capped with
      | none => s
      | some c =>
        (s.modCol c fun k => { k with pcap := match k.pcap with | some f => if s.glb.fmax ≤ f + 1 then none else some (f + 1) | none => none }).decideCol c)

/-! ### Heat (R604, R621) -/

/-- The sensors that lie in the region of sensor `i` (R590, R713). -/
def sensorRegion (i : Nat) : List Nat :=
  if i < 48 then [i / 3 * 3, i / 3 * 3 + 1, i / 3 * 3 + 2]
  else if i < 52 then [48, 49, 50, 51]
  else if i < 56 then [52, 53, 54, 55]
  else [56, 57, 58, 59, 60, 61, 62, 63]

/-- The fused trim of a sensor, signed (R629). -/
def State.trim (s : State) (i : Nat) : Int :=
  (BitVec.ofNat 4 (wfld (tget 0 s.dev.fuses (25 + i / 8)) (4 * (i % 8) + 3) (4 * (i % 8)))).toInt

/-- The temperature that a sensor last read. -/
def Foreman.temp (f : Foreman) (i : Nat) : Int := (tget 0 f.readings i).toInt

/-- Sensor `i` reads more than 15 °C from the mean of its neighbours that are not excluded (R621). -/
def Foreman.astray (f : Foreman) (i : Nat) : Bool :=
  let l := (sensorRegion i).filter fun j => j != i && !f.excluded.contains j
  !l.isEmpty && decide (15 * l.length < ((f.temp i) * l.length - (l.map f.temp).sum).natAbs)

/-- New readings: 64 raw values to which the trims are added, and the sensors that R621 excludes. -/
def State.readSensors (s : State) (raw : List Byte) : State :=
  let r := raw.mapIdx fun i x => BitVec.ofInt 8 (x.toInt + s.trim i)
  let f := { s.foreman with readings := (r.zipIdx).foldl (fun t e => tset 0 t e.2 e.1) s.foreman.readings }
  let s : State := { s with foreman := f }
  (List.range 64).foldl (fun (s : State) i =>
    if f.excluded.contains i then s else
      let n := if f.astray i then tget 0 f.strikes i + 1 else 0
      let s : State := { s with foreman := { s.foreman with strikes := tset 0 s.foreman.strikes i n } }
      if 10 ≤ n then
        ({ s with foreman := { s.foreman with excluded := s.foreman.excluded ++ [i] } } : State).logAll srcForeman 0x8B (w32 i)
          (BitVec.ofInt 32 (f.temp i)) 0
      else s) s

/-- The sensors in use. -/
def Foreman.sensors (f : Foreman) : List Nat := (List.range 64).filter fun i => !f.excluded.contains i

/-- The hottest sensor, the lowest number on a tie. -/
def Foreman.hottest (f : Foreman) : Option Nat :=
  f.sensors.foldl (fun (best : Option Nat) i => match best with
    | none => some i
    | some b => if f.temp b < f.temp i then some i else best) none

/-- The hottest sensor is shown, and ALERT is set at ALERT_T (R504). -/
def State.showHeat (s : State) : State :=
  match s.foreman.hottest with
  | none => s
  | some i =>
    { s with glb := { s.glb with
        sensor := i, tmax := tget 0 s.foreman.readings i
        alert := s.glb.alert || decide ((s.glb.alertT : Int) ≤ s.foreman.temp i) } }

/-- A column falls one step for heat, down to FMIN (R604). -/
def State.coolCol (s : State) (c : Nat) : State :=
  let k := s.col c
  if k.tripped then s else
    (s.modCol c fun k => { k with tcap := some (max s.glb.fmin (min k.target (k.tcap.getD k.target) - 1)) }).decideCol c

/-- A sensor at or above THROTTLE_T (R604). -/
def State.throttleRule (s : State) (hot : List Nat) : State :=
  match hot with
  | [] => { s with foreman := { s.foreman with checks := 0 } }
  | i :: _ =>
    let s : State := if s.glb.throttle then s else
      ({ s with glb := { s.glb with throttle := true } } : State).logAll srcForeman 0x44 1 (w32 i) (BitVec.ofInt 32 (s.foreman.temp i))
    let cols := if hot.any (48 ≤ ·) then allCols else allCols.filter fun c => hot.any fun i => i / 3 = c
    let s := if s.foreman.checks % 10 = 0 then cols.foldl (fun (s : State) c => s.coolCol c) s else s
    { s with foreman := { s.foreman with checks := s.foreman.checks + 1 } }

/-- A sensor at or above 105 °C (R604). -/
def State.tripRule (s : State) (excess : List Nat) : State :=
  match excess with
  | [] => s
  | i :: _ =>
    let s : State := { s with glb := { s.glb with trip := true } }
    let s : State := if s.foreman.trip then s else
      ({ s with foreman := { s.foreman with trip := true } } : State).logAll srcForeman 0x45 (w32 i) (BitVec.ofInt 32 (s.foreman.temp i)) 0 0x200
    let s := allCols.foldl (fun (s : State) c => (s.modCol c fun k => { k with tcap := some 60, tripped := true }).decideCol c) s
    ({ s with foreman := { s.foreman with tripPace := true } } : State).setPace 15

/-- THERMAL_CHECK (R604): 64 readings, and the thermal rules. -/
def execThermalCheck (readings : List Byte) (s : State) : Out :=
  .next (if !s.foremanUp || readings.length != 64 then s else
    let s := (s.readSensors readings).showHeat
    let f := s.foreman
    let t := f.throttleT
    let s := (s.throttleRule (f.sensors.filter fun i => (t : Int) ≤ f.temp i)).tripRule (f.sensors.filter fun i => 105 ≤ f.temp i)
    let cool := f.sensors.all fun i => f.temp i ≤ (t : Int) - 3
    { s with foreman := { s.foreman with cool, trip := s.foreman.trip && !cool } })

/-! ### Regulators (R699 to R704, R720) -/

/-- A column leaves service: every usable bench of it is retired, and its regulator is off (R635, R704). -/
def State.retireCol (s : State) (c : Nat) : State :=
  ((benchesOf c).foldl (fun (s : State) b => s.retire b 4) s).modCol c fun k => { k with vrcOn := false, retired := true }

/-- A fault of a column's regulator monitor (R628, R720). -/
def State.regulatorFault (s : State) (c : Nat) (measured : Word) : State :=
  (s.logAll srcForeman 0x8A (w32 c) measured (w32 (s.col c).mv) 0x100).retireCol c

/-- Even parity over bits 22:1 of a frame: the value of bit 23 (R700, R701). -/
def framePar (f : BitVec 25) : Bool := (List.range 22).foldl (fun p i => p != f.getLsbD (i + 1)) false

/-- The command frame that stands on VRC_CMD of a column: the code of the commanded voltage, or none while its regulator is off (R699,
R700, R704). -/
def State.vrcFrame (s : State) (c : Nat) : Option (BitVec 25) :=
  let f : BitVec 25 := BitVec.ofNat 25 (1 + 2 * voltCode (s.col c).mv)
  if (s.col c).vrcOn then some (if framePar f then f ||| 0x800000 else f) else none

/-- The power of a column in mW, VMEAS times IMEAS (R702). -/
def Column.power (k : Column) : Nat := (500 + 2 * k.vmeas) * k.imeas / 20

/-- A telemetry frame is valid: START, STOP and even parity (R701, R702). -/
def frameOk (f : BitVec 25) : Bool :=
  f.getLsbD 0 && !f.getLsbD 24 && framePar f = f.getLsbD 23

/-- TELEMETRY_FRAME (R702, R720): a frame of a column's regulator. -/
def execTelemetryFrame (col : Col4) (frame : BitVec 25) (s : State) : Out :=
  let c := col.toNat
  .next (if !s.foremanUp || !(s.col c).vrcOn || !frameOk frame then s else
    let vm := fld frame.toNat 8 1
    let mv := 500 + 2 * vm
    let was := (s.col c).lost
    let s := s.modCol c fun k => { k with vmeas := vm, imeas := fld frame.toNat 20 9, lost := false }
    let k := s.col c
    if frame.getLsbD 21 || frame.getLsbD 22 || (decide (k.settle ≤ s.stroke.cycle) && decide (30 < max mv k.mv - min mv k.mv)) then
      s.regulatorFault c (w32 mv)
    else if was then s.decideCol c else s)

/-- TELEMETRY_LOSS (R720): no valid frame for 2 µs, or for 1 ms. -/
def execTelemetryLoss (col : Col4) (long : Bool) (s : State) : Out :=
  let c := col.toNat
  .next (if !s.foremanUp || !(s.col c).vrcOn then s
    else if long then s.regulatorFault c 0
    else s.modCol c fun k => { k with lost := true })

/-! ### The fan -/

/-- The function of a GPIO pin that drives or samples it: none in a parking window (R667). -/
def State.pinActs (s : State) (n : Nat) : Nat := if s.glb.parking.contains n then 0 else s.pinFunc n

/-- The pin whose pulses are the fan speed: the lowest-numbered one with the function (R590). -/
def State.fanPin (s : State) : Option Nat := (List.range 8).find? fun n => s.pinFunc n = 5

/-- FAN_TACH (R668, R590): a rising edge on a pin. -/
def execFanTach (pin : BitVec 3) (s : State) : Out :=
  .next (if s.foremanUp && s.pinActs pin.toNat = 5 && s.fanPin = some pin.toNat then
    { s with foreman := { s.foreman with fan := s.foreman.fan + 1 } } else s)

end Sys2Proof.Machine
end

