-- ==== Sys2Proof/Machine/Life.lean ====
section
/-! DEFINITION. Power, reset, start-up and clamp (chapter 17), the GPIO pins (R667, R668), and the faults that the Foreman answers with
more than a report (R620, R636, R640, R644). -/

namespace Sys2Proof.Machine

/-! ### Reset (R655 to R657) -/

/-- What a bench keeps over a reset: permanent faults of its circuits. -/
def Bench.physical (v : Bench) : Bench :=
  { stuck := v.stuck, badFabric := v.badFabric, badTranspose := v.badTranspose, badSolver := v.badSolver }

/-- The device enters reset for a cause, the number of a bit of GLB_RESET_CAUSE. Everything takes its reset value but
GLB_RESET_CAUSE, the tamper monitors and the JTAG port (R657, R669); fuses and what lies outside the device stay. -/
def State.enterReset (s : State) (cause : Nat) : State :=
  { benches := s.benches.foldl (fun t e => tset {} t e.1 e.2.physical) []
    host := s.host
    veneer := { stuck := s.veneer.stuck }
    cols := s.cols.foldl (fun t e => tset {} t e.1 { leakFj := e.2.leakFj, droop := e.2.droop }) []
    dev := { phase := .inReset, fuses := s.dev.fuses, tamper := s.dev.tamper, epoch := s.dev.epoch + 1
             fmTries := s.dev.fmTries, fmHeld := s.dev.fmHeld, resetLow := s.dev.resetLow }
    glb := { resetCause := s.glb.resetCause ||| BitVec.ofNat 8 (2 ^ cause) }
    jtag := s.jtag
    free := s.free
    pending := s.pending }

/-- POWER_ON (R656): PWROK rises after VDD_AON was down. -/
def execPowerOn (s : State) : Out :=
  .next (if s.dev.phase = .unpowered then
    { s.enterReset 0 with
      glb := { resetCause := 1 }, jtag := {}
      dev := { phase := .inReset, fuses := s.dev.fuses, epoch := s.dev.epoch + 1, resetLow := s.dev.resetLow } }
    else s)

/-- PWROK_FALL (R655, R656): a reset with cause SUPPLY while VDD_AON is held, else the loss of all power. -/
def execPwrokFall (aonHeld : Bool) (s : State) : Out :=
  .next (if s.dev.phase = .unpowered then s
    else
      let r := s.enterReset 6
      if aonHeld then r
      else { r with
        dev := { phase := .unpowered, fuses := s.dev.fuses, epoch := r.dev.epoch, resetLow := s.dev.resetLow }, glb := {}, jtag := {} })

/-- RESET_N (R656, R657, R680): the pin is low. -/
def execResetN (s : State) : Out :=
  let low (s : State) : State := { s with dev := { s.dev with resetLow := true, fmTries := 0, fmHeld := false } }
  .next (if s.dev.phase = .unpowered then low s else low (s.enterReset (if s.dev.clamped then 3 else 1)))

/-- RESET_RELEASE (R655, R664): PWROK, RESET_N and CLAMP_N are high and the reset's own condition holds. -/
def execResetRelease (s : State) : Out :=
  .next (if s.dev.phase = .inReset && !s.dev.fmHeld then
    { s with dev := { s.dev with phase := .fuses, resetLow := false } } else s)

/-- A write of GLB_CTL (R497, R498): COH changes only while no window holds a Veneer way (R470). -/
def State.wrCtl (s : State) (v : Word) : State :=
  let free := allParts.all fun p => (s.ten p).ways = 0
  let s : State := { s with glb := { s.glb with coh := if free then bit v 0 else s.glb.coh, gpioIrq := bit v 1, pinlock := s.glb.pinlock || bit v 2 } }
  if bit v 31 && wfld v 23 16 = 0xD1 then s.enterReset 2 else s

/-- SWRST (R498). -/
def execSwrst (v : Word) (s : State) : Out := .next (s.cb fun s => s.wrCtl v)

/-! ### The start-up order (R664) -/

/-- The bytes of the fuse words that word 39 covers (R629). -/
def fuseBytes (t : Tab Word) : List Byte :=
  ((List.range 39).filter (· ≠ 8)).flatMap fun i => leBytes 4 (tget 0 t i).toNat

/-- GLB_LIFECYCLE.STATE of the fuses: the highest set bit of word 8 plus 1 (R630). -/
def lifeOf (w : Word) : Nat := if bit w 2 then 3 else if bit w 1 then 2 else if bit w 0 then 1 else 0

/-- The benches of the fuse map (R496). -/
def fuseMap (t : Tab Word) : BitVec 128 := tget 0 t 7 ++ tget 0 t 6 ++ tget 0 t 5 ++ tget 0 t 4

/-- FUSE_LOAD (R641, R664 steps 2 and 3): the fuses are loaded and checked; the regulators, the clear, the training of the
modules and the image check start. -/
def execFuseLoad (s : State) : Out :=
  .next (if !(s.clocked && s.dev.phase = .fuses) then s else
    let t := s.dev.fuses
    let crc := crc32 (fuseBytes t)
    let ok := decide (crc = (tget 0 t 39).toNat)
    let s : State := { s with dev := { s.dev with
      phase := .clear, ids := [0, 1, 2, 3].map (tget 0 t), fmTries := 0
      usable := if ok then fuseMap t else 0, lifecycle := lifeOf (tget 0 t 8), fuseBad := !ok } }
    let s := allCols.foldl (fun (s : State) c =>
      let v := s.voltAt c 100
      s.modCol c fun k => { k with vrcOn := true, mv := v, mv100 := 500 + 2 * s.vtab c 100, settle := 40000 }) s
    if ok then s else s.logAll srcDevice 0x93 (w32 crc) (tget 0 t 39) 0)

/-- HPP_TRAINED (R487): a module ends its training at start-up. -/
def execHppTrained (m : Module2) (ok : Bool) (s : State) : Out :=
  .next (if !s.foremanUp || (s.hpp m.toNat).up || (s.hpp m.toNat).down then s else s.hppTrainEnd m.toNat ok)

/-- CLEAR_DONE (R359, R664 steps 6 and 7): every memory is 0, the Control Bus opens, and the start-up plane run begins; after a tamper
of a voltage or clock source the device resets instead (R367, R644). -/
def execClearDone (s : State) : Out :=
  .next (if !(s.clocked && s.dev.phase = .clear) then s
    else match s.glb.wipeReset with
    | some c => s.enterReset c
    | none =>
    let s : State := { s with
      dev := { s.dev with phase := .planes }, glb := { s.glb with clearDone := true }
      veneer := { s.veneer with lines := [] } }
    let s := allBenches.foldl (fun (s : State) b => s.modBench b fun v =>
      { v with drawer := [], idrawer := [], ecc := [], boards := [], glue := {}, slots := [], spec := [], applied := {} }) s
    s.startPlanes (maskList s.dev.usable) false true 0xF)

/-! ### The boot image (R658 to R661) -/

/-- Why an image is rejected, as REASON: the first of R674's order; 0 for an accepted image. A non-zero reserved byte has no
REASON of its own: `other`. -/
def imageReason (img : List Byte) (other : Nat) : Nat :=
  let w (i : Nat) : Nat := leNat ((img.drop i).take 4)
  let n := w 8
  if w 0 ≠ 0x58544657 then 1
  else if n % 4 ≠ 0 ∨ n < 4 ∨ 32608 < n then 2
  else if img.length < 0x40 + n + 96 ∨ crc32 ((img.drop 0x40).take n) ≠ w 12 then 3
  else if Config.signatureOk (img.take (0x40 + n + 96)) = false then 4
  else if w 4 ≤ Config.romVersion.toNat then 5
  else if ((img.drop 0x10).take 0x30).any (· ≠ 0) then other
  else 0

/-- The image check ends: the selected firmware runs from step 8 of R664 on. -/
def State.bootEnd (s : State) (x : Boot) : State :=
  let s : State := { s with boot := x, dev := { s.dev with bootDone := true } }
  if s.dev.phase = .boot then { s with dev := { s.dev with phase := .running }, glb := { s.glb with mboxBusy := false } } else s

/-- BOOT_IMAGE_CHECK (R659, R660): the SFDP word and the image as read, in 1-1-4 or 1-1-1. -/
def execBootImageCheck (sfdp : Word) (quad : Bool) (image : List Byte) (s : State) : Out :=
  .next (if !s.foremanUp || s.dev.bootDone then s
    else if sfdp ≠ 0x50444653 then s.bootEnd {}
    else
      let (k, s) := s.draw
      let r := imageReason image ((Config.freeWord k).toNat % 16)
      let ok : Bool := decide (imageReason image 1 = 0)
      s.bootEnd (if ok then { version := w32 (leNat ((image.drop 4).take 4)), source := 2, quad }
        else { source := 1, reason := r, quad }))

/-- FLASH_TIMEOUT (R687): a read of the flash stalls for 1 ms. -/
def execFlashTimeout (s : State) : Out :=
  .next (if !s.foremanUp || s.dev.bootDone then s else s.bootEnd { source := 1, reason := 6 })

/-! ### Clamp (R676 to R680) -/

/-- CLAMP (R676, R677): every domain stops where it stands, and the bypass closes. -/
def execClamp (s : State) : Out :=
  .next (if s.clocked then { s with dev := { s.dev with clamped := true }, links := { s.links with closed := true } } else s)

/-! ### Pins (R667, R668) -/

/-- A write of GLB_PINMUX. -/
def State.wrPinmux (s : State) (v : Word) : State :=
  if s.glb.pinlock then s else
    let moved := (List.range 8).filter fun n => s.pinFunc n ≠ wfld v (4 * n + 2) (4 * n)
    { s with
      glb := { s.glb with pinmux := v, parking := (s.glb.parking.filter fun n => !moved.contains n) ++ moved }
      dev := { s.dev with tamper := s.dev.tamper.filter fun t => match t with | .gpio p => !moved.contains p.toNat | _ => true } }

/-- GLB_PINMUX (R667). -/
def execGlbPinmux (v : Word) (s : State) : Out := .next (s.cb fun s => s.wrPinmux v)

/-- PARK_END (R667): eight Foreman cycles have passed, and the function takes the pin. -/
def execParkEnd (pin : BitVec 3) (s : State) : Out :=
  .next (if s.clocked then { s with glb := { s.glb with parking := s.glb.parking.filter (· ≠ pin.toNat) } } else s)

/-- What the device does to a GPIO pin. -/
inductive PinOut where
  | highZ
  /-- The weak keeper of the parking window. -/
  | keeper (level : Bool)
  | drive (level : Bool)
  /-- The 1 Hz square wave of STATUS in Rest. -/
  | square
  deriving DecidableEq, Repr

/-- IRQ_OUT (R668). -/
def State.irqOut (s : State) : Bool :=
  (allParts.any fun p => (s.ten p).irqLive != 0) || (s.glb.gpioIrq && s.dev.faults != 0)

/-- What stands at GPIO pin `n` (R657, R667, R668). -/
def State.pinOut (s : State) (n : Nat) : PinOut :=
  if s.dev.phase = .unpowered ∨ s.dev.phase = .inReset then .highZ
  else if s.glb.parking.contains n then .keeper (bit s.glb.pinmux (4 * n + 3))
  else match s.pinFunc n with
    | 1 => .drive s.irqOut
    | 2 => .drive s.glb.alert
    | 3 => .drive (bit s.dev.faults 0)
    | 4 => .drive (s.stroke.count != 0 && decide (s.stroke.cycle < 128))
    | 6 => if s.dev.phase = .running then (match s.dev.rest with | .awake | .requested => .drive true | _ => .square) else .drive false
    | _ => .highZ

/-! ### Tamper (R643, R644) -/

/-- A tamper source can be seen: a GPIO pin needs the function, outside its parking window, and is ignored while clamped (R643, R677). -/
def State.tamperSeen (s : State) (src : TamperSrc) : Bool :=
  match src with
  | .gpio p => s.pinActs p.toNat = 7 && !s.dev.clamped
  | _ => true

/-- The bit of GLB_RESET_CAUSE of the reset that follows the wipe of a source (R644). -/
def tamperReset : TamperSrc → Option Nat
  | .voltage => some 6 | .clock => some 7 | .temperature | .gpio _ => none

/-- TAMPER (R644): a source asserts. While clamped it is only remembered (R367); during the clear no wipe runs, since the clear zeroes
everything (R367), and the reset of a voltage or clock source follows the clear (DESIGN CHOICE, log 79). -/
def execTamper (src : TamperSrc) (measured : Word) (s : State) : Out :=
  .next (if s.dev.phase = .unpowered || s.dev.phase = .inReset || s.dev.tamper.contains src || !s.tamperSeen src then s else
    let s : State := { s with dev := { s.dev with tamper := s.dev.tamper ++ [src] } }
    if s.dev.clamped then s else
      let s := (s.logAll srcForeman 0x8F (w32 (tamperCode src)) measured 0 0x40).stopSecure
      let s := if s.dev.phase = .clear then s else s.startWipe 0
      { s with glb := { s.glb with wipeReset := match tamperReset src with | some c => some c | none => s.glb.wipeReset } })

/-- TAMPER_DEASSERT (R644): a source clears. -/
def execTamperDeassert (src : TamperSrc) (s : State) : Out :=
  .next (if s.dev.phase = .unpowered || s.dev.clamped then s
    else { s with dev := { s.dev with tamper := s.dev.tamper.filter (· ≠ src) } })

/-- SECURE_WIPE_DONE (R352, R644): the wipe ends after so many µs, and accesses to bank 15 that waited go on (R367); for a voltage or clock
source a reset follows. -/
def execSecureWipeDone (micros : Nat) (s : State) : Out :=
  .next (if !s.clocked then s else
    match s.glb.wipe with
    | none => s
    | some t =>
      let s := ({ s with glb := { s.glb with wipe := none } } : State).logAll srcForeman 0x90 (w32 t) (w32 micros) 0
      match s.glb.wipeReset with
      | some c => s.enterReset c
      | none => s.advanceAll)

/-! ### Lockstep (R136, R635, R636) -/

/-- LOCKSTEP_MISMATCH (R136, R636): the pair, or the duplicated logic of the stream engine, differs. The running task is stopped and
the bench goes on with its other tasks; a second mismatch within 2^20 strokes retires it. -/
def execLockstepMismatch (b : Bench7) (stream : Bool) (s : State) : Out :=
  let k := b.toNat
  .next (if !(s.alive && s.usable k) then s else
    let v := s.bench k
    let again : Bool := match v.lockAt with | none => false | some t => decide (s.now < t + 2 ^ 20)
    let s := match v.cur with
      | some _ => s.log (srcBench k) 0x82 v.cc.part (w32 k) v.cc.pc (w32 (b2n stream))
      | none => s.logAll (srcBench k) 0x82 (w32 k) 0 (w32 (b2n stream))
    let s := s.modBench k fun v => { v with lockAt := some s.now }
    -- The cause is recorded in the context that ran, or that ran last (R136).
    (if again then s.retire k 2 else match v.cur with | some n => s.forceStop k n .fault | none => s).modBench k fun u =>
      u.modCtx (v.cur.getD v.last) fun c => { c with jcause := jcauseOf .exception exLOCK 0 false })

/-! ### Monitors and the Foreman's lanes (R620, R628, R640, R686, R698) -/

/-- CLOCK_MONITOR (R628, R698): the monitor of a clock domain fires. -/
def execClockMonitor (domain : BitVec 6) (s : State) : Out :=
  let d := domain.toNat
  let note (s : State) : State := s.logAll srcForeman 0x89 (w32 d) 0 0 0x80
  .next (if !s.clocked || (decide (d < 52) && !s.foremanUp) then s
    else if d < 16 then (if (s.port d).live then (note s).portDown d 1 else note s)
    else if d < 32 then s
    else if d < 36 then (note s).hppDown (d - 32)
    else if d < 52 then (if s.alive then (note s).retireCol (d - 36) else s)
    else if d < 54 then (if s.alive then s.enterReset 7 else s)
    else if d < 56 ∨ d = 59 then s.enterReset 7
    else s)

/-- The Foreman's majority is lost: a reset, and at step 1 of start-up a third in a row is the last (R620, R686). -/
def State.majorityLost (s : State) : State :=
  let r := s.enterReset 5
  if s.dev.phase = .fuses then
    { r with dev := { r.dev with fmTries := s.dev.fmTries + 1, fmHeld := decide (3 ≤ s.dev.fmTries) } }
  else r

/-- FOREMAN_LANE (R620): a lane leaves the majority. -/
def execForemanLane (lane : BitVec 2) (s : State) : Out :=
  let i := lane.toNat
  .next (if !s.clocked || !s.glb.fmLanes.getLsbD i then s else
    let l := s.glb.fmLanes &&& ~~~(BitVec.ofNat 3 (2 ^ i))
    if l = 1 ∨ l = 2 ∨ l = 4 ∨ l = 0 then s.majorityLost
    else ({ s with glb := { s.glb with fmLanes := l } } : State).logAll srcForeman 0x8C (w32 i) 0 0 8)

/-- FOREMAN_WATCHDOG (R656): no two lanes have serviced it for 10 ms. -/
def execForemanWatchdog (s : State) : Out := .next (if s.clocked then s.enterReset 5 else s)

end Sys2Proof.Machine
end

