-- ==== Sys2Proof/Machine/Foreman.lean ====
section
/-! DEFINITION. The Foreman's mailbox (R508 to R510, R612 to R617), the link configuration (R423, R424), the end of a plane run
(R365), and Rest (R606 to R610). -/

namespace Sys2Proof.Machine

/-! ### Link configuration (R423, R424) -/

/-- Word `i` of a block. -/
def blk (b : List Byte) (i : Nat) : Word := w32 (leNat ((b.drop (4 * i)).take 4))
/-- The bytes of a block from word `i` on are 0. -/
def blkZero (b : List Byte) (i : Nat) : Bool := (b.drop (4 * i)).all (· = 0)

/-- Dimension `k` of a LINK_CONFIG block. -/
def blkDim (b : List Byte) (k : Nat) : Dim :=
  let x := wfld (blk b 1) (8 * k + 7) (8 * k)
  { size := x % 8 + 1, line := bitN x 3 = 1, gap := x / 16 % 8 }

/-- Every field of a LINK_CONFIG block holds a legal value (R423). -/
def linkFields (b : List Byte) : Bool :=
  let w := blk b
  let dev := wfld (w 0) 11 0
  let dims := [0, 1, 2, 3].map fun k => (k, blkDim b k)
  wfld (w 0) 15 12 = 0 && wfld (w 0) 31 18 = 0 &&
  dims.all (fun e => decide (coord dev e.1 < e.2.size) && !bit (w 1) (8 * e.1 + 7) &&
    (if e.2.line then decide (e.2.gap < e.2.size) else e.2.gap = 0) &&
    !(e.2.size = 1 && wfld (w 2) (4 * e.1 + 3) (4 * e.1) != 0)) &&
  wfld (w 2) 31 16 = 0 && allPorts.all (fun p => wfld (w 3) (2 * p + 1) (2 * p) != 3) && wfld (w 4) 31 9 = 0 && blkZero b 5

/-- Some port is trained. -/
def State.anyTrained (s : State) : Bool := allPorts.any fun p => (s.port p).st = .active || (s.port p).retrain

/-- A LINK_CONFIG block is accepted (R424). -/
def State.linkOk (s : State) (b : List Byte) : Bool :=
  linkFields b &&
    !(s.anyTrained && (s.dev.id.toNat != wfld (blk b 0) 11 0 ||
      [0, 1, 2, 3].any fun k => (s.dim k).size != (blkDim b k).size || ((s.dim k).line && !(blkDim b k).line)))

/-- A port after a link configuration: down when it is not enabled, and in training when it may train. -/
def Port.configured (q : Port) (on : Bool) (train : Bool) : Port :=
  if !on || q.dead then { q with st := .off, retrain := false, planOn := false, slotNow := none }
  else match q.st with
    | .off | .barred => if train then { q with st := .detect, fails := 0 } else { q with st := .off }
    | .active => q
    | _ => if train || q.retrain then q else { q with st := .off }

/-- A valid LINK_CONFIG takes effect. -/
def State.configLinks (s : State) (b : List Byte) : State :=
  let linken := bit (blk b 0) 16
  let bypass := bit (blk b 0) 17
  let porten : BitVec 16 := (blk b 2).extractLsb' 0 16
  let s : State := { s with
    dev := { s.dev with id := (blk b 0).extractLsb' 0 12 }
    links := { s.links with
      linken, bypass, porten, maxrate := blk b 3, marginMin := wfld (blk b 4) 7 0, retrainEn := bit (blk b 4) 8
      dims := [0, 1, 2, 3].foldl (fun t k => tset {} t k (blkDim b k)) s.links.dims
      closed := s.links.closed || bypass } }
  allPorts.foldl (fun (s : State) p => s.modPort p fun q => q.configured (porten.getLsbD p && !bypass) (linken && !bypass)) s

/-! ### Results (R612 to R614) -/

/-- Slack of a column as TELEMETRY shows it (R613). -/
def State.slackByte (s : State) (c : Nat) : Nat :=
  let k := s.col c
  if k.last.stopped then 255 else match k.last.slack with
    | none => 255
    | some x => min 254 (256 * x.toNat / max 1 (s.strokeCycles k.freq))

/-- A TELEMETRY page (R613). -/
def State.telemetryPage (s : State) (page : Nat) : List Byte :=
  let f := s.foreman
  let temps (i : Nat) : List Byte := (List.range 32).map fun k => tget 0 f.readings (i + k)
  let byte (n : Nat) : Byte := BitVec.ofNat 8 n
  leBytes 4 page ++
    if page = 0 then
      leBytes 4 f.avg ++ leBytes 4 (f.energy / 100000 % 2 ^ 32) ++
      leBytes 4 (s.glb.tmax.toNat + s.glb.sensor * 2 ^ 8 + b2n s.glb.throttle * 2 ^ 16 + b2n s.glb.trip * 2 ^ 17 + f.pace * 2 ^ 20) ++
      allCols.map (fun c => byte (s.col c).freq) ++ allCols.map (fun c => byte (voltCode (s.col c).mv)) ++
      allCols.map fun c => byte (s.slackByte c)
    else
      (if page = 1 then match f.fanLast with
        | some (n, pin) => leBytes 4 (min n 0xFFFF + pin * 2 ^ 16 + 2 ^ 19)
        | none => leBytes 4 0
      else leBytes 4 0) ++ List.replicate 24 0 ++ temps (32 * (page - 1))

/-- The LINK_STATUS word of a port (R614). -/
def Port.statusWord (q : Port) : Nat :=
  q.st.step + q.rate * 2 ^ 3 + q.margin % 256 * 2 ^ 5 + min q.replays 255 * 2 ^ 13 + min q.uncor 255 * 2 ^ 21

/-! ### The mailbox (R508 to R510) -/

/-- A mailbox command ends. -/
def State.mboxEnd (s : State) (status err : Nat) : State :=
  { s with glb := { s.glb with mboxBusy := false, mboxDone := true, mboxStatus := status, mboxErr := err, mboxGo := none, mboxRetire := none } }

/-- A mailbox command returns bytes at an offset of its block, and ends (R510). -/
def State.mboxReply (s : State) (p off : Nat) (bytes : List Byte) : State :=
  let (s, ok) := s.foremanWrite p (s.glb.mboxAddr + off) bytes
  s.mboxEnd (if ok then 0 else 2) 0

/-- A bench that is back in service: what R139 gives its core, memories of 0, and its windows of R635. -/
def Bench.readmitted (v : Bench) : Bench :=
  { v.physical with planeOk := true, lockAt := v.lockAt, uncorAt := v.uncorAt, sumAt := v.sumAt
                    scrubAt := v.scrubAt, corrN := v.corrN, corrAt := v.corrAt }

/-- BENCH_READMIT with its plane run, which waits for the plane engine (R617). -/
def State.readmit (s : State) (v : Word) (b : Nat) (fail : Option PlaneFail) : State :=
  let p := wfld v 10 8
  if (fuseMap s.dev.fuses).getLsbD b = false || s.usable b then s.mboxEnd 1 errRANGE
  else if s.glb.mbist.busy then { s with glb := { s.glb with mboxGo := some (v, fail) } }
  else
    let s := match fail with
      | some f => s.logAll (srcBench b) 0x92 (w32 b) (zext f.mem) f.addr 0x400
      | none => { (s.modBench b Bench.readmitted) with dev := { s.dev with usable := maskSet s.dev.usable b true } }
    let s : State := { s with glb := { s.glb with mbist := { s.glb.mbist with fail := fail.isSome, failBench := if fail.isSome then b else 0xFF } } }
    (s.logAll srcForeman 0x4B (w32 b) (w32 (b2n fail.isSome)) 0).mboxReply p 4 (leBytes 4 (b2n fail.isSome))

/-- POLICY_GET and LINK_STATUS, which read no block (R612 to R614). -/
def State.mboxPlain (s : State) (op p : Nat) : State :=
  if op = 3 then s.mboxReply p 0 (leBytes 4 s.foreman.policy0.toNat ++ leBytes 4 s.foreman.policy1.toNat ++ List.replicate 56 0)
  else
    let bytes := allPorts.flatMap fun q => leBytes 4 (s.port q).statusWord
    (allPorts.foldl (fun (s : State) q => s.modPort q fun x => { x with replays := 0, uncor := 0 }) s).mboxReply p 0 bytes

/-- A mailbox command of a GO word on the block that was read (R612). -/
def State.mboxBlock (s : State) (v : Word) (b : List Byte) (fail : Option PlaneFail) : State :=
  let range (s : State) : State := s.mboxEnd 1 errRANGE
  let bench := wfld (blk b 0) 6 0
  let named := wfld (blk b 0) 31 7 = 0 && blkZero b 1
  match wfld v 7 0 with
  | 1 => if s.linkOk b then (s.configLinks b).mboxEnd 0 0 else range s
  | 2 =>
    if policyOk (blk b 0) (blk b 1) (b.drop 8) then
      (({ s with foreman := { s.foreman with newPolicy := some (blk b 0, blk b 1) } } : State).logAll srcForeman 0x4A (blk b 0) (blk b 1) 0).mboxEnd 0 0
    else range s
  | 4 =>
    if 2 < (blk b 0).toNat || !blkZero b 1 then range s
    else s.mboxReply (wfld v 10 8) 0 (s.telemetryPage (blk b 0).toNat)
  | 6 =>
    if !named || !s.usable bench then range s
    else
      let s := (s.modBench bench fun v => { v with retireIn := some (v.retireIn.getD 2) }).setPend bench 7
      { s with glb := { s.glb with mboxRetire := some bench } }
  | _ => if named then s.readmit v bench fail else range s

/-- Run the mailbox command of a GO word: an unassigned OP ends at once (R612). -/
def State.mboxRun (s : State) (v : Word) (fail : Option PlaneFail) : State :=
  let op := wfld v 7 0
  let p := wfld v 10 8
  if op = 0 ∨ 7 < op then s.mboxEnd 3 0
  else if op = 3 ∨ op = 5 then s.mboxPlain op p
  else match s.foremanClean p s.glb.mboxAddr 64 with
    | (s, none) => s.mboxEnd 2 0
    | (s, some b) => s.mboxBlock v b fail

/-- A GO (R508, R510): it withdraws a Rest request, or wakes the device and runs after the wake. -/
def State.mboxStart (s : State) (v : Word) (fail : Option PlaneFail) : State :=
  if s.glb.mboxBusy || wfld v 29 11 != 0 then s else
    let s : State := { s with glb := { s.glb with
      mboxBusy := true, mboxDone := false, mboxStatus := 0, mboxErr := 0, mboxOp := wfld v 7 0 } }
    let s := s.unrest 2 3 (wfld v 10 8)
    if s.dev.rest = .awake then s.mboxRun v fail else { s with glb := { s.glb with mboxGo := some (v, fail) } }

/-- A write of GLB_FOREMAN_MBOX (R508). -/
def State.wrMbox (s : State) (v : Word) : State :=
  let a := s.glb.mboxAddr
  match wfld v 31 30 with
  | 1 => if s.glb.mboxBusy then s else { s with glb := { s.glb with mboxAddr := a / 2 ^ 32 * 2 ^ 32 + wfld v 25 0 * 64 } }
  | 2 => if s.glb.mboxBusy then s else { s with glb := { s.glb with mboxAddr := wfld v 19 0 * 2 ^ 32 + a % 2 ^ 32 } }
  | 3 => s.mboxStart v none
  | _ => s

/-- The row of one STEP and OP. -/
def State.mboxRow (s : State) (v : Word) (ops : Nat → Bool) (fail : Option PlaneFail) : State :=
  if wfld v 31 30 = 3 && ops (wfld v 7 0) then s.cb fun s => s.mboxStart v fail else s

/-- ADDR_LO (R508). -/
def execAddrLo (v : Word) (s : State) : Out := .next (if wfld v 31 30 = 1 then s.cb fun s => s.wrMbox v else s)
/-- ADDR_HI (R508). -/
def execAddrHi (v : Word) (s : State) : Out := .next (if wfld v 31 30 = 2 then s.cb fun s => s.wrMbox v else s)
/-- LINK_CONFIG (R423). -/
def execLinkConfig (v : Word) (s : State) : Out := .next (s.mboxRow v (· = 1) none)
/-- POLICY_SET (R592). -/
def execPolicySet (v : Word) (s : State) : Out := .next (s.mboxRow v (· = 2) none)
/-- POLICY_GET (R612). -/
def execPolicyGet (v : Word) (s : State) : Out := .next (s.mboxRow v (· = 3) none)
/-- TELEMETRY (R613). -/
def execTelemetry (v : Word) (s : State) : Out := .next (s.mboxRow v (· = 4) none)
/-- LINK_STATUS (R614). -/
def execLinkStatus (v : Word) (s : State) : Out := .next (s.mboxRow v (· = 5) none)
/-- BENCH_RETIRE (R615): the retirement follows at the second boundary, and ends the command. -/
def execBenchRetire (v : Word) (s : State) : Out := .next (s.mboxRow v (· = 6) none)
/-- BENCH_READMIT (R617): `fail` is what the plane run finds. -/
def execBenchReadmit (v : Word) (fail : Option PlaneFail) (s : State) : Out := .next (s.mboxRow v (· = 7) fail)
/-- UNKNOWN_OP (R612). -/
def execUnknownOp (v : Word) (s : State) : Out := .next (s.mboxRow v (fun op => op = 0 || decide (7 < op)) none)

/-- A command that waited for the wake or for the plane engine runs. -/
def State.mboxResume (s : State) : State :=
  match s.glb.mboxGo with
  | some (v, fail) => ({ s with glb := { s.glb with mboxGo := none } } : State).mboxRun v fail
  | none => s

/-! ### The end of a plane run (R365) -/

/-- What a bench that was tested holds after the run. -/
def Bench.runEnd (v : Bench) (mem : BitVec 4) : Bench :=
  { (match v.plane with | .running false => v.planed mem | _ => v) with plane := .none, planeOk := true }

/-- PLANE_RUN_END (R365): the run has ended on every bench; what failed is retired, and what passed is recorded. A destructive run of the
Veneer cache leaves it empty with valid check bits, and a preserving one unchanged (R361). The start-up run also sets PLANE_DONE (R664). -/
def execPlaneRunEnd (fails : List PlaneFail) (s : State) : Out :=
  let m := s.glb.mbist
  .next (if !s.alive || !m.busy || (s.benches.any fun e => e.2.plane = .waiting) then s else
    let bad := fails.filter s.failsRun
    let tested : List Nat := (s.benches.filter fun e => match e.2.plane with | .running _ => true | _ => false).map (·.1)
    let s := tested.foldl (fun (s : State) b => s.modBench b fun v => v.runEnd m.runMem) s
    let s : State := if m.veneer && m.mode != 1 then { s with veneer := { s.veneer with lines := [], used := false, ecc := [] } } else s
    let s := bad.foldl (fun (s : State) f => s.planeFail f) s
    let low : Nat := (bad.filterMap fun f => f.bench.map (·.toNat)).foldl min 0xFF
    let fb := if bad.isEmpty then 0xFF else if low = 0xFF then 0x80 else low
    let s : State :=
      { s with
        glb := { s.glb with mbist := { s.glb.mbist with busy := false, veneer := false, fail := !bad.isEmpty, failBench := fb } }
        veneer := { s.veneer with planeOk := if m.veneer then decide (s.veneer.goneSlices.length < 16) else s.veneer.planeOk } }
    let s : State := if s.dev.phase = .planes then
      { s with dev := { s.dev with phase := if s.dev.bootDone then .running else .boot }
               glb := { s.glb with planeDone := true, mboxBusy := !s.dev.bootDone } }
    else s
    if s.dev.rest = .awake then s.mboxResume else s)

/-! ### Rest (R503, R606 to R610) -/

/-- A write of GLB_POWER_CTL (R503, R492). -/
def State.wrPower (s : State) (v : Word) : State :=
  let g := s.glb
  let ok (x : Nat) : Bool := decide (60 ≤ x) && decide (x ≤ 110)
  let fmax := if ok (wfld v 29 23) then wfld v 29 23 else g.fmax
  let fmin := if ok (wfld v 22 16) then wfld v 22 16 else g.fmin
  let plimit := if 50 ≤ wfld v 8 0 ∧ wfld v 8 0 ≤ 300 then wfld v 8 0 else g.plimit
  let s : State := if fmax < fmin then { s with glb := { g with plimit } }
    else (({ s with glb := { g with fmax, fmin, plimit } } : State).decideAll)
  match s.dev.rest, bit v 31 with
  | .awake, true => { s with dev := { s.dev with rest := .requested } }
  | .requested, false => { s with dev := { s.dev with rest := .awake } }
  | .resting, false => { s with dev := { s.dev with rest := .waking, wakeSrc := 1, wakePart := 0 } }
  | _, _ => s

/-- REST_REQUEST (R606): GLB_POWER_CTL with REST = 1. -/
def execRestRequest (v : Word) (s : State) : Out := .next (if bit v 31 then s.cb fun s => s.wrPower v else s)
/-- REST_WAKE (R609): GLB_POWER_CTL with REST = 0. -/
def execRestWake (v : Word) (s : State) : Out := .next (if bit v 31 then s else s.cb fun s => s.wrPower v)

/-- The conditions of entry to Rest (R607). -/
def State.mayRest (s : State) : Bool :=
  s.alive && s.dev.phase = .running && s.dev.rest = .requested &&
    (s.benches.all fun e => !e.2.hasTask && e.2.tags.owner.isEmpty && e.2.xfers.isEmpty) &&
    (s.tens.all fun e => e.2.cmds.isEmpty && e.2.cpls.isEmpty) && !s.glb.mboxBusy &&
    !(s.activePlan.any fun r => peKind r.2.2 != 1) && !s.glb.mbist.busy && s.glb.wipe.isNone

/-- REST_ENTER (R607, R357): the entry is logged while the modules still work, so the arbiter accepts it and what came before it. -/
def execRestEnter (s : State) : Out :=
  .next (if !s.mayRest then s else
    let s := (s.logAll srcForeman 0x47 0 0 0).acceptAll
    let s := allParts.foldl (fun (s : State) p => s.modTen p fun t => { t with waysBusy := false, waysInv := 0 }) s
    let s := allCols.foldl (fun (s : State) c => s.modCol c fun k => { k with vrcOn := false }) s
    { s with dev := { s.dev with rest := .resting }, veneer := { s.veneer with lines := [] } })

/-- REST_EXIT (R358, R610): the wake ends, or becomes a reset when a retained supply fell. The regulators of the columns in service have
been on and settled since its first steps (R704); messages and the GO that waited act. -/
def execRestExit (vsramOk vaonOk : Bool) (s : State) : Out :=
  .next (if !(s.clocked && s.dev.rest = .waking) then s
    else if !(vsramOk && vaonOk) then s.enterReset 4
    else
      let s := s.logAll srcForeman 0x48 (w32 s.dev.wakeSrc) (w32 (if s.dev.wakeSrc = 2 then s.dev.wakePart else 0)) 0
      -- Setting the tag arrays invalid writes each tag word (R610 step 4).
      let s : State := { s with
        dev := { s.dev with rest := .awake }
        veneer := { s.veneer with lines := [], ecc := s.veneer.ecc.filter fun e => e.1 < 2 ^ 23 } }
      let s := allCols.foldl (fun (s : State) c => s.modCol c fun k => { k with vrcOn := !k.retired, settle := 0 }) s
      let waiting := s.links.parked
      let s : State := { s with links := { s.links with parked := [] } }
      (waiting.foldl (fun (s : State) e => s.serve e.1 e.2) s).mboxResume)

end Sys2Proof.Machine
end

