-- ==== Sys2Proof/Machine/Stroke.lean ====
section
/-! DEFINITION. The stroke reference's markers and states (R41 to R46, R62 to R64, R76, R79 to R82). -/

namespace Sys2Proof.Machine

/-- A master by rank and identifier. -/
abbrev Master := Nat × Nat

/-- The order of R39: the lower rank, then the lower identifier. -/
def Master.before (a b : Master) : Bool := decide (a.1 < b.1) || (a.1 = b.1 && decide (a.2 < b.2))

/-- This device as a master. -/
def State.self (s : State) : Master := (s.stroke.rank.toNat, s.dev.id.toNat)
/-- The device is a CANDIDATE (R37). -/
def State.candidate (s : State) : Bool := s.stroke.role = 2
/-- The master that a marker names (R42). -/
def markerMaster (m : Marker) : Master := (m.masterRank.toNat, m.masterId.toNat)

/-- The primary and the redundant path to a master: the two ports of the first hop's dimension that face the parent (R43), the
other way round a ring when neither of the direct way is ACTIVE (R427). -/
def State.pathsTo (s : State) (id : Nat) : Option (Nat × Nat) :=
  let me := s.dev.id.toNat
  match [0, 1, 2, 3].find? fun k => coord me k ≠ coord id k with
  | none => none
  | some k =>
    let dir := (s.dim k).plus (coord me k) (coord id k)
    let live (d : Bool) : Bool := (s.portFacing k d 0).isSome
    let way := if !live dir && !(s.dim k).isLine && live (!dir) then !dir else dir
    let base := if way then 4 * k else 4 * k + 2
    some (base, base + 1)

/-- Port `p` carries the alignment to a master: the primary path, or the redundant one while the primary is not trained (R43, R76). -/
def State.onPath (s : State) (p id : Nat) : Bool :=
  match s.pathsTo id with
  | none => false
  | some (a, b) => p = a || (p = b && !(s.port a).live)

/-- An offset in 0.05 ns as stroke-reference cycles, to the nearest (R33, R44). -/
def phaseCycles (x : Int) : Int := (x + 5) / 10

/-- The measured one-way latency of a port in 0.05 ns: half the round trip, 0 before the first measurement (R44). -/
def Port.oneWay (p : Port) : Nat := p.rtt.getD 0 / 2

/-- The offset that a marker on a port shows: its arrival less the path's one-way latency (R43). -/
def State.offsetOf (s : State) (p : Nat) (m : Marker) : Int := m.arrival - (s.port p).oneWay

/-- Change the stroke reference. -/
def State.modStroke (s : State) (f : Stroke → Stroke) : State := { s with stroke := f s.stroke }

/-- Adopt a marker of port `p`: its count at once, and LOCKED at the next boundary (R62). -/
def State.adoptMarker (s : State) (p : Nat) (m : Marker) : State :=
  s.modStroke fun k =>
    { k with count := m.count, master := some (markerMaster m), adopt := some m, adoptBy := s.offsetOf p m, heard := true }

/-- The slew that an offset brings: at most 1 cycle of it in the present stroke, and the rest later (R64). A stroke that makes a
step is left as it is. -/
def Stroke.slewBy (k : Stroke) (off : Int) : Stroke :=
  if k.stepBy ≠ 0 then k else
    { k with slew := phaseCycles off - (phaseCycles off).sign, span := ((2 ^ k.len : Int) + (phaseCycles off).sign).toNat }

/-- A marker in ACQUIRE (R62, R63): its LEN must match; a CANDIDATE does not follow a master that it comes before. One that hears
a master of a lower RANK listens from then on (R63; DESIGN CHOICE, log 120). -/
def State.acquireMarker (s : State) (p : Nat) (m : Marker) : State :=
  let mm := markerMaster m
  let s := if mm.before s.self then s.modStroke fun k => { k with listened := 0 } else s
  if m.len.toNat ≠ s.stroke.len then
    if s.stroke.lenLogged then s
    else (s.modStroke fun k => { k with lenLogged := true }).logAll srcDevice 0x09 (w32 m.len.toNat) (w32 s.stroke.len) 0
  else if s.candidate && s.self.before mm then s
  else if !s.onPath p mm.2 then s
  else match s.stroke.adopt with
    | some o => if (markerMaster o).before mm then s else s.adoptMarker p m
    | none => s.adoptMarker p m

/-- The two paths differ by more than 1 ns: logged once per 1,024 strokes (R76). -/
def State.pathCheck (s : State) : State :=
  match s.stroke.primary, s.stroke.redundant with
  | some a, some b =>
    let due : Bool := match s.stroke.pathAt with | none => true | some t => decide (t + 1024 ≤ s.now)
    if 20 < (a - b).natAbs ∧ due then
      (s.modStroke fun k => { k with pathAt := some s.now }).logAll srcDevice 0x08 (BitVec.ofInt 32 (a - b)) 0 0
    else s
  | _, _ => s

/-- A marker of the followed master in LOCKED (R43): the primary path aligns, the redundant one is compared. -/
def State.trackMarker (s : State) (p : Nat) (m : Marker) : State :=
  match s.pathsTo m.masterId.toNat with
  | none => s
  | some (a, b) =>
    let off := s.offsetOf p m
    if p = a then
      (s.modStroke fun k => ({ k with heard := true, primary := some off }).slewBy off).pathCheck
    else if p = b then
      let lead := !(s.port a).live
      (s.modStroke fun k =>
        let k := { k with heard := true, redundant := some off }
        if lead then k.slewBy off else k).pathCheck
    else s

/-- A marker of another master (R39, R80): a better one is followed, and STROKE_MASTER_CHANGE is logged. -/
def State.otherMaster (s : State) (p : Nat) (m : Marker) (old : Master) (state : Nat) : State :=
  let mm := markerMaster m
  if mm.before old && s.onPath p mm.2 && m.len.toNat = s.stroke.len then
    ((s.adoptMarker p m).modStroke fun k => { k with state }).logAll srcDevice 0x05 (w32 mm.1) (w32 old.1) 0
  else s

/-- A marker in HOLDOVER (R64, R80): the lost master is back, or another one is elected; a CANDIDATE does not follow a master that
it comes before. -/
def State.holdoverMarker (s : State) (p : Nat) (m : Marker) : State :=
  let mm := markerMaster m
  if !s.onPath p mm.2 || m.len.toNat != s.stroke.len then s
  else if s.stroke.lost = some mm then s.adoptMarker p m
  else if s.candidate && s.self.before mm then s
  else match s.stroke.adopt with
    | some o => if mm.before (markerMaster o) then s.adoptMarker p m else s
    | none =>
      (s.adoptMarker p m).logAll srcDevice 0x05 (w32 mm.1) (w32 ((s.stroke.lost.getD (0xFFF, 0)).1)) 0

/-- STROKE (R43, R62): a marker arrives on a port. A LOCAL device accepts none (R39). -/
def execStroke (port : Port4) (m : Marker) (s : State) : Out :=
  let p := port.toNat
  .next (if !(s.clocked && (s.port p).live) || m.masterId = s.dev.id then s else
    match s.stroke.state with
    | 1 => s.acquireMarker p m
    | 2 => if s.stroke.master = some (markerMaster m) then s.trackMarker p m else s.otherMaster p m (s.stroke.master.getD (0x1000, 0)) 2
    | 3 => s.otherMaster p m s.self 1
    | 4 => s.holdoverMarker p m
    | 5 => (s.modStroke fun k => { k with state := 1, listened := 0, master := none }).acquireMarker p m
    | _ => s)

/-- STROKE_HOLDOVER (R79): LOCKED without a marker for 2 strokes. A CANDIDATE advertises itself from now on (R80). -/
def execStrokeHoldover (s : State) : Out :=
  .next (if s.clocked && s.stroke.state = 2 && decide (2 ≤ s.stroke.silent) && s.stroke.adopt.isNone then
    let old := s.stroke.master
    (s.modStroke fun k =>
      { k with state := 4, held := 0, lost := old, master := if s.candidate then some s.self else old, slew := 0 }).logAll srcDevice 0x04
      (w32 (old.getD (0xFFF, 0)).1) 0 0
    else s)

/-- ENTER_MASTER (R63, R80): a CANDIDATE with an ACTIVE port that has heard no better master for 8 strokes, or one in HOLDOVER. It
keeps its phase and its count. -/
def execEnterMaster (s : State) : Out :=
  let k := s.stroke
  let active : Bool := allPorts.any fun p => (s.port p).live
  .next (if s.clocked && s.candidate && k.adopt.isNone && ((k.state = 1 && decide (8 ≤ k.listened) && active) || k.state = 4) then
    s.modStroke fun k => { k with state := 3, master := some s.self, lost := none, slew := 0, stepBy := 0 }
    else s)

/-- STROKE_FREERUN (R82): 64 strokes in HOLDOVER without a master; the tick plan is suspended. -/
def execStrokeFreerun (s : State) : Out :=
  .next (if s.clocked && s.stroke.state = 4 && decide (64 ≤ s.stroke.held) && s.stroke.adopt.isNone then
    (s.modStroke fun k => { k with state := 5, planOn := false, suspended := true, master := none }).logAll srcDevice 0x06 0 0 0
    else s)

end Sys2Proof.Machine
end

