-- ==== Sys2Proof/Machine/Boundary.lean ====
section
/-! DEFINITION. The stroke boundary (R35, R65, and the table of chapter 02), in the order of its steps: the stroke count and the
markers; benches that are stopped (R59, R77); publication and split rounds (R61, R56, R320); what takes effect (R65, R68, R514, R572,
R615); the tasks that go on (R59, R569); and what the Foreman measures and counts per stroke (R591, R596, R605). -/

namespace Sys2Proof.Machine

/-! ### Step 0: the stroke reference -/

/-- The step that the stroke after the adoption of a marker makes: an offset of more than 64 cycles (R64). -/
def Stroke.stepOf (k : Stroke) : Option Int :=
  let off := phaseCycles k.adoptBy
  if k.adopt.isSome && decide (64 < off.natAbs) then some off else none

/-- LOCKED through R64: a small offset is slewed, a larger one removed in one step stroke. -/
def Stroke.lockOn (k : Stroke) : Stroke :=
  { k with state := 2, adopt := none, silent := 0, held := 0, lost := none, lenLogged := false
           slew := match k.stepOf with | some _ => 0 | none => phaseCycles k.adoptBy, stepBy := k.stepOf.getD 0 }

/-- The reference at a boundary, without the events: the count, the state, and the length of the stroke that begins (R34, R63, R64, R79, R82). -/
def Stroke.edge (k : Stroke) (anyPort : Bool) : Stroke :=
  let on := k.state = 2 ∨ k.state = 3 ∨ k.state = 4
  let k := { k with stepBy := 0 }
  let k := match k.adopt with
    | some _ => { k.lockOn with count := k.count + 1 }
    | none => { k with
        count := k.count + 1, silent := if k.heard then 0 else k.silent + 1
        held := if k.state = 4 then k.held + 1 else k.held
        listened := if k.state = 1 && k.role = 2 && anyPort then k.listened + 1 else k.listened }
  let d := if k.stepBy = 0 then k.slew.sign else k.stepBy
  let plan := decide on && k.state != 5
  { k with
    planOn := plan, suspended := k.suspended && !plan, heard := false, primary := none, redundant := none, cycle := 0
    slew := if k.stepBy = 0 then k.slew - k.slew.sign else k.slew
    span := ((2 ^ k.len : Int) + d).toNat }

/-- The marker that a device sends at its boundary on every trained port (R42). -/
def State.sendMarkers (s : State) : State :=
  let k := s.stroke
  if k.state = 2 ∨ k.state = 3 ∨ k.state = 4 then
    let m := k.master.getD s.self
    allPorts.foldl (fun (s : State) p =>
      if (s.port p).live then s.modPort p fun q => { q with marker := some (k.count, k.rank.toNat, k.len, m.1, m.2) } else s) s
  else s

/-- Step 0: the count becomes s + 1 and the markers leave; a step stroke is logged (R64). -/
def State.edge (s : State) : State :=
  let step := s.stroke.stepOf
  let s := s.modStroke fun k => k.edge (allPorts.any fun p => (s.port p).live)
  let s := match step with | some d => s.logAll srcDevice 0x07 (BitVec.ofInt 32 d) 0 0 | none => s
  s.sendMarkers

/-! ### Step 1: benches that are not finished (R59, R77) -/

/-- A real-time bench is not finished: a context is READY, RUNNING or STALLED (R59). -/
def Bench.unfinished (v : Bench) : Bool :=
  [0, 1, 2, 3].any fun n => let t := (v.ctx n).status; t = .ready || t = .running || t = .stalled

/-- DEADLINE is pending; in a handler JCAUSE.DLPEND shows it (R59, R135). -/
def Ctx.deadlined (c : Ctx) : Ctx :=
  { c with deadline := true, jcause := if c.exl then c.jcause ||| 0x10000 else c.jcause }

/-- Whether a flit begins a PUT or an ACCUMULATE of bench `b` of device `me` under one of some tags (R417). -/
def Flit.putOf (f : Flit) (me b : Nat) (tags : List Nat) : Bool :=
  let w := w32 (leNat (f.payload.take 4))
  f.src = me && wfld w 21 15 = b && (wfld w 3 0 = 0 || wfld w 3 0 = 3) && tags.contains (wfld w 27 22)

/-- Poison the flits of a queue that belong to such messages; `open_`: channels whose message, begun in what has left, is one. -/
def poisonFlits (me b : Nat) (tags : List Nat) (open_ : Tab Bool) (l : List Flit) : List Flit × Tab Bool :=
  l.foldl (fun (acc : List Flit × Tab Bool) f =>
    if f.kind = 0 ∨ 4 < f.kind then (acc.1 ++ [f], acc.2) else
      let on := if f.kind = 1 ∨ f.kind = 4 then f.putOf me b tags else tget false acc.2 f.vc
      (acc.1 ++ [if on then { f with poison := true } else f], tset false acc.2 f.vc on)) ([], open_)

/-- The message of a run of bench `b` to another device has left its port's NoC side. -/
def State.departed (s : State) (b : Nat) (x : Xfer) (i : Nat) (r : Run) : Bool :=
  r.told && !s.onChip { who := .bench b, tag := x.tag, write := true, run := i, tries := r.tries }

/-- A transfer whose writes to other devices have not all left sends the rest with poison. -/
def State.poisonFar (s : State) (b : Nat) (x : Xfer) : Xfer :=
  let far (i : Nat) (r : Run) : Bool := !x.msg.any MsgOp.small && (match r.place with | .remote .. => !s.departed b x i r | _ => false)
  let on := (x.writes.mapIdx far).any id
  { x with poison := x.poison || (on && x.stage = .reading), writes := x.writes.mapIdx fun i r => { r with poison := r.poison || far i r } }

/-- Every remote PUT and ACCUMULATE that a bench issued in the stroke that ends and that has not fully left carries poison (R77). -/
def State.poisonSent (s : State) (b : Nat) : State :=
  let me := s.dev.id.toNat
  let mine (x : Xfer) : Bool := s.now ≤ x.born + 1
  let tags := ((s.bench b).xfers.filter mine).map (·.tag)
  let put (x : Xfer) : Xfer := if mine x then s.poisonFar b x else x
  let s := allPorts.foldl (fun (s : State) p => s.modPort p fun q =>
    { q with queue := (poisonFlits me b tags (poisonFlits me b tags [] q.replay).2 q.queue).1 }) s
  s.modBench b fun v => { v with xfers := v.xfers.map put, msgQ := v.msgQ.map put }

/-- The slots that the bench's own code committed in the stroke get their poison flag (R77). -/
def Rack.spoilOwn (k : Rack) : Rack :=
  if k.prod = 0 then { k with poison := k.own.foldl (fun t c => tset false t (k.idx c) true) k.poison } else k

/-- The task whose miss a stopped bench logs: the one that runs or stalls, else the lowest READY one. -/
def Bench.missed (v : Bench) : Nat :=
  match v.cur with
  | some n => n
  | none => (([0, 1, 2, 3].find? fun n => (v.ctx n).status = .ready).getD 0)

/-- Stop a real-time bench at the boundary (R77, R78, R72). -/
def State.stopBench (s : State) (b : Nat) : State :=
  let s := s.modBench b Bench.squash
  let s := s.cutStreams b true fun _ => true
  let s := [0, 1, 2, 3].foldl (fun (s : State) r => s.modRack b r Rack.spoilOwn) s
  let s := s.poisonSent b
  let v := s.bench b
  let c := v.ctx v.missed
  let s := s.log (srcBench b) 0x01 (s.actsFor b) c.epc (s.cmdTag c.part c.cmd) 0
  let s := [0, 1, 2, 3].foldl (fun (s : State) n =>
    let c := (s.bench b).ctx n
    if c.status = .ready ∨ c.status = .running ∨ c.status = .stalled then
      (s.modBench b fun v => v.modCtx n Ctx.deadlined).modCmd c.part c.cmd fun x => { x with late := some (min b (x.late.getD b)) }
    else s) s
  let s := s.modCol (colOf b) fun k => { k with win := { k.win with stopped := true } }
  let s := s.modBench b fun v => { v with draining := v.cur.isSome }
  (s.modTen (s.actsFor b) fun t => { t with missCount := satAdd t.missCount 1 }).cause (s.actsFor b) 8

/-- Stop every real-time bench that is not finished. -/
def State.stopBenches (s : State) : State :=
  (s.benches.map (·.1)).foldl (fun (s : State) b =>
    if s.usable b && s.isRt b && (s.bench b).unfinished then s.stopBench b else s) s

/-! ### The slack of the stroke (R591) -/

/-- The slack of a bench in the stroke that ends; `n`: the column's cycles in it, `f`: its FREQ. -/
def Bench.slack (v : Bench) (rt : Bool) (n f : Nat) : Int :=
  if rt then
    if v.unfinished then -1 else match v.slackAt with
      | some c => (n : Int) - (c * f / 100 : Nat)
      | none => n
  else ((n - v.issued : Nat) : Int)

/-- The lower of two values of which one may be missing. -/
def minOpt (a : Option Int) (b : Int) : Option Int := match a with | none => some b | some x => some (min x b)

/-- The slack of every bench with a task enters the window of its column (R590, R591). -/
def State.noteSlack (s : State) (span : Nat) : State :=
  s.benches.foldl (fun (t : State) e =>
    if t.usable e.1 && e.2.hasTask then
      let c := colOf e.1
      let f := (t.col c).freq
      let x := e.2.slack (t.isRt e.1) (span * f / 100) f
      t.modCol c fun k => { k with win := { k.win with slack := minOpt k.win.slack x } }
    else t) s

/-! ### Step 2: racks and rounds (R61, R56, R320) -/

/-- A slot whose SLOT_END has not arrived by the boundary that ends the stroke after its reservation commits with poison (R320). -/
def Rack.ageFills (k : Rack) : Rack :=
  { k with
    claims := [], overrun := []
    fills := k.fills.map fun f => if 1 ≤ f.age && !f.ended then { f with ended := true, poison := true } else { f with age := f.age + 1 } }

/-- The racks of a bench at a boundary: claims lapse, late slots commit, and a real-time bench publishes (R293, R320). -/
def State.rackEdge (s : State) (b : Nat) : State :=
  let rt := s.isRt b
  [0, 1, 2, 3].foldl (fun (s : State) r =>
    if ((s.bench b).rack r).enable then
      let s := s.modRack b r Rack.ageFills
      let s := State.commitFills b r ((s.bench b).rack r).fills.length s
      let s := if rt then s.publish b r else s
      s.modRack b r fun k => { k with own := [] }
    else s.modRack b r fun k => { k with overrun := [] }) s

/-- Every rack, and the split rounds restart: the round that the boundary cuts is abandoned (R56). -/
def State.racksEdge (s : State) : State :=
  (s.benches.map (·.1)).foldl (fun (s : State) b =>
    let pre := (s.ten (s.actsFor b)).presetActive
    (s.rackEdge b).modBench b fun v => { v.rounds pre 1 with round := 0 }) s

/-! ### Step 3: what takes effect (R65, R68, R74, R514, R572, R513, R615) -/

/-- A plan of the partition activates at a count (R68). -/
def Tenant.activates (t : Tenant) (count : DWord) : Bool := t.newPlans.any fun n => n.1 = count

/-- The mode, the split, the slots and the plan of a partition; `fresh`: the partitions whose plan activates now, whose entries may
be logged in a pair again (R53). -/
def Tenant.edge (t : Tenant) (count : DWord) (fresh : List Nat) : Tenant :=
  let t := { t with
    rtActive := t.rt, presetActive := t.preset, slotsUse := t.slots
    planHits := if t.activates count then [] else t.planHits.filter fun h => !fresh.contains (h.2 / 4096) }
  match (t.newPlans.filter fun n => n.1 = count).getLast? with
  | some n => { t with plan := n.2, newPlans := t.newPlans.filter fun n => n.1 ≠ count }
  | none => t

/-- RECEIVE entries claim free slots at the boundary that begins a stroke (R320, R322). -/
def State.claimSlots (s : State) : State :=
  s.activePlan.foldl (fun (s : State) r =>
    let e := r.2.2
    let b := peBench e
    let k := (s.bench b).rack (peRack e)
    if peKind e = 2 && peFlits e != 0 && s.usable b && k.enable && k.prod = 2 then
      let n := min k.freeSlots (max 1 (peFlits e / ceilDiv (2 ^ k.slotlog) 240))
      s.modRack b (peRack e) fun k => { k with claims := k.claims ++ [(r.2.1, n)] }
    else s) s

/-- One boundary less of a countdown. -/
def countdown (x : Option Nat) : Option Nat := x.map (· - 1)

/-- A CANCEL at its second boundary stops every task of the partition (R572). -/
def State.cancelEdge (s : State) (p : Nat) : State :=
  match (s.ten p).cancel with
  | none | some 0 => s
  | some (n + 1) =>
    let s := s.modTen p fun t => { t with cancel := some n }
    if n ≠ 0 then s else
      let s := (s.benches.map (·.1)).foldl (fun (s : State) b => [0, 1, 2, 3].foldl (fun (s : State) k =>
        let c := (s.bench b).ctx k
        if c.status != .empty && c.part = p && (s.ten p).cmds.any (fun d => d.id = c.cmd && (s.ten p).beforeCancel d) then s.forceStop b k .cancel else s) s) s
      s.settle p

/-- A bench that leaves a partition at its second boundary: its tasks are stopped and its clear begins (R513). -/
def State.leaveEdge (s : State) (b : Nat) : State :=
  match (s.bench b).cancelIn with
  | none => s
  | some n =>
    if 1 < n then s.modBench b fun v => { v with cancelIn := some (n - 1) }
    else
      let s := [0, 1, 2, 3].foldl (fun (s : State) k =>
        let c := (s.bench b).ctx k
        if c.status = .empty then s
        else s.forceStop b k .cancel) s
      s.clearBench b

/-- A commanded retirement at its second boundary (R615). -/
def State.retireEdge (s : State) (b : Nat) : State :=
  match (s.bench b).retireIn with
  | none => s
  | some n =>
    if 1 < n then s.modBench b fun v => { v with retireIn := some (n - 1) }
    else s.retire b 0

/-- The mailbox command that awaits a retirement ends once the bench is out of service (R615, R619). -/
def State.retireDone (s : State) : State :=
  match s.glb.mboxRetire with
  | some b => if s.usable b then s else s.mboxEnd 0 0
  | none => s

/-- Forced stops that fall due. -/
def State.stopsEdge (s : State) : State :=
  let s := allParts.foldl (fun (s : State) p => s.cancelEdge p) s
  let s := (s.benches.map (·.1)).foldl (fun (s : State) b => (s.leaveEdge b).retireEdge b) s
  s.retireDone

/-- Modes, plans, ports and claims. -/
def State.planEdge (s : State) : State :=
  let fresh := allParts.filter fun p => (s.ten p).activates s.stroke.count
  let s := allParts.foldl (fun (s : State) p => s.modTen p fun t => t.edge s.stroke.count fresh) s
  let s := allPorts.foldl (fun (s : State) p => s.modPort p fun q => { q with planOn := q.live }) s
  ({ s with links := { s.links with unmatched := [] } } : State).claimSlots

/-! ### Step 4: tasks that go on (R59, R569) -/

/-- The contexts of a bench at a boundary: those that waited for it, and those that a RUN loaded, become READY; a task that kept
the bench with a live glue-up runs on. -/
def Bench.boundary (v : Bench) : Bench :=
  let v := [0, 1, 2, 3].foldl (fun (v : Bench) n => v.modCtx n fun c =>
    if v.cur = some n && c.status = .waiting && c.await = .boundary then { c with status := .running, await := .nothing } else c) v
  ({ v with slackAt := none, issued := 0 } : Bench).wake fun a => a = .boundary || a = .start

/-! ### The Foreman at a boundary -/

/-- Energy of the stroke: the static share of each bench, and whole microjoules move to TEN_ENERGY (R605). -/
def State.energyEdge (s : State) : State :=
  allParts.foldl (fun (s : State) p =>
    let rest := s.dev.rest = .resting ∨ s.dev.rest = .waking
    let share := if rest then 0 else ((maskList (s.ten p).mask).map fun b => (s.col (colOf b)).leakFj / 8).sum
    s.modTen p fun t =>
      let e := t.energyFj + share
      { t with energy := t.energy + w32 (e / 10 ^ 9), energyFj := e % 10 ^ 9 }) s

/-- Columns: droop into the window, clock changes, and JSCYC from 0 (R35, R98, R598, R599). -/
def State.columnEdge (s : State) (span : Nat) : State :=
  allCols.foldl (fun (s : State) c =>
    let d := (s.col c).droop
    let s := s.modCol c fun k =>
      { k with droop := none, cyc := 0, frac := 0
               win := { k.win with droop := match d with | some x => minOpt k.win.droop x | none => k.win.droop } }
    let s := s.clockEdge c span
    match d with
    | some x =>
      if x < 0 && (s.col c).vrcOn then
        let (k, s) := s.draw
        s.regulatorFault c (Config.freeWord k)
      else s
    | none => s) s

/-- The end of a window (R592, R596): the windows wait for their evaluation, a new policy is taken, and the pace of a trip falls (R604). -/
def State.windowEdge (s : State) : State :=
  let f := s.foreman
  if f.strokes + 1 < 2 ^ f.windowLog then { s with foreman := { f with strokes := f.strokes + 1 } }
  else
    let s := allCols.foldl (fun (s : State) c => s.modCol c fun k => { k with ended := some k.win, win := {} }) s
    let s : State := match f.newPolicy with
      | some w => ({ s with foreman := { f with strokes := 0, policy0 := w.1, policy1 := w.2, newPolicy := none } } : State).decideAll
      | none => { s with foreman := { f with strokes := 0 } }
    if s.foreman.tripPace && s.foreman.cool && !s.foreman.trip then
      let n := s.foreman.pace - 1
      ({ s with foreman := { s.foreman with tripPace := n != 0 } } : State).setPace n
    else s

/-- One second of fan pulses has passed (R590). -/
def State.fanEdge (s : State) (span : Nat) : State :=
  let f := s.foreman
  if f.fanTime + span < 2 * 10 ^ 9 then { s with foreman := { f with fanTime := f.fanTime + span } }
  else { s with foreman := { f with fanTime := 0, fan := 0, fanLast := s.fanPin.map fun p => (f.fan, p) } }

/-- The columns see the boundary: JIPEND.STROKE of every usable bench (R99). -/
def State.strokePend (s : State) : State :=
  allBenches.foldl (fun (s : State) b => if s.usable b then s.setPend b 6 else s) s

/-- What the benches and the dispatcher do at a boundary. -/
def State.benchEdge (s : State) (span : Nat) : State :=
  let s := (s.strokePend.noteSlack span).stopBenches.racksEdge.planEdge.stopsEdge
  (s.benches.map (·.1)).foldl (fun (s : State) b =>
    if s.usable b && !(s.bench b).clearing then s.modBench b Bench.boundary else s) s

/-- STROKE_BOUNDARY (R35, R36): the edge that ends a stroke. In Rest the reference and the ports go on (R608). -/
def execStrokeBoundary (s : State) : Out :=
  .next (if !s.clocked then s else
    let span := s.stroke.span
    let s := s.edge
    let s := if s.alive then s.benchEdge span else s.planEdge
    if s.foremanUp then (((s.columnEdge span).windowEdge).fanEdge span).energyEdge else s)

/-- The drain of a stopped bench ends (R77, R186): the bench goes back to the oldest instruction that has not committed, and what
unfinished operations were writing is undefined. -/
def State.drained (s : State) (b : Nat) : State :=
  let s := s.modBench b fun v => match v.flight with | [] => v | o :: _ => v.rewind o.snap
  (s.abandon b).modBench b fun v => { v with draining := false }

/-- DRAIN_END (R77, R186): the drain of a stopped bench has ended, and DEADLINE is taken, or stays pending behind a handler (R135). -/
def execDrainEnd (b : Bench7) (s : State) : Out :=
  let k := b.toNat
  .next (if !(s.alive && (s.bench k).draining) then s else
    let s := s.drained k
    match (s.bench k).cur with
    | none => s
    | some _ =>
      let s := s.modCc k fun c => { c with status := .running, await := .nothing }
      let c := s.cc k
      if c.deadline && !c.exl then s.except k exDEADLINE none else s)

end Sys2Proof.Machine
end

