-- ==== Sys2Proof/Machine/CbWrite.lean ====
section
/-! DEFINITION. The register map of the Control Bus (R457, R493, R518): what a read of each register returns, and the write
of any register. -/

namespace Sys2Proof.Machine

/-! ### Reads (R490, R493 to R512) -/

/-- The identity words: GLB_ID_VENDOR_PART to GLB_ID_WAFER_POS (R494, R495). -/
def State.idWord (s : State) (i : Nat) : Word :=
  let w := s.dev.ids.getD i 0
  if i = 0 then wput w 27 16 0x7A3 else w

/-- GLB_STATUS (R499). -/
def State.glbStatus (s : State) : Word :=
  let hpp := ((List.range 4).map fun m => b2n ((s.hpp m).up && !(s.hpp m).down) * 2 ^ m).sum
  w32 (s.glb.fmLanes.toNat * 2 ^ 24 + (maskList s.dev.usable).length * 2 ^ 16 +
    b2n (allBenches.any fun b => (s.bench b).clearing) * 2 ^ 12 + hpp * 2 ^ 8 +
    b2n (decide (s.dev.rest ≠ .awake)) * 2 ^ 7 + b2n s.veneer.planeOk * 2 ^ 6 + b2n s.glb.planeDone * 2 ^ 5 +
    b2n s.glb.clearDone * 2 ^ 4 + s.stroke.state)

/-- GLB_THERM_STATUS (R504). -/
def State.thermStatus (s : State) : Word :=
  let g := s.glb
  w32 (g.alertT * 2 ^ 24 + b2n g.trip * 2 ^ 18 + b2n g.alert * 2 ^ 17 + b2n g.throttle * 2 ^ 16 + g.sensor * 2 ^ 8 + g.tmax.toNat)

/-- GLB_TICK_CTL (R37). -/
def State.tickCtl (s : State) : Word :=
  let k := s.stroke
  w32 (b2n k.lock * 2 ^ 31 + b2n k.planEn * 2 ^ 18 + k.rank.toNat * 2 ^ 6 + k.role.toNat * 2 ^ 4 + k.len)

/-- GLB_PART_CFG: the item that GLB_PART_SEL selects (R512, R631). -/
def State.partCfg (s : State) : Word :=
  let t := s.ten s.glb.selPart
  match s.glb.selItem with
  | 0 => w32 (b2n (t.secAllow && s.secureOk) * 2 + b2n t.enable)
  | 1 => zext t.waysAllowed
  | 2 => t.mask.extractLsb' 0 32
  | 3 => t.mask.extractLsb' 32 32
  | 4 => t.mask.extractLsb' 64 32
  | 5 => t.mask.extractLsb' 96 32
  | 6 => (tget 0 t.slots s.glb.selPort).extractLsb' 0 32
  | 7 => (tget 0 t.slots s.glb.selPort).extractLsb' 32 32
  | _ => 0

/-- GLB_POWER_CTL (R503). -/
def State.powerCtl (s : State) : Word :=
  w32 (b2n (decide (s.dev.rest ≠ .awake)) * 2 ^ 31 + b2n (decide (s.dev.rest = .waking)) * 2 ^ 30 +
    s.glb.fmax * 2 ^ 23 + s.glb.fmin * 2 ^ 16 + s.glb.plimit)

/-- GLB_MBIST_CTL (R362). -/
def State.mbistCtl (s : State) : Word :=
  let m := s.glb.mbist
  w32 (b2n m.busy * 2 ^ 30 + b2n m.fail * 2 ^ 29 + m.mode * 2 ^ 25 + b2n m.all * 2 ^ 24 + m.mem.toNat * 2 ^ 20 +
    m.failBench * 2 ^ 8 + m.bench)

/-- GLB_FOREMAN_MBOX (R509). -/
def State.mboxWord (s : State) : Word :=
  let g := s.glb
  w32 (b2n g.mboxBusy * 2 ^ 31 + b2n g.mboxDone * 2 ^ 30 + g.mboxErr * 2 ^ 12 + g.mboxStatus * 2 ^ 8 + g.mboxOp)

/-- What a read of an offset of the global block returns (R493). -/
def State.rdGlb (s : State) (off : Nat) : Word :=
  let g := s.glb
  match off with
  | 0x00 => s.idWord 0
  | 0x04 => s.idWord 1
  | 0x08 => s.idWord 2
  | 0x0C => s.idWord 3
  | 0x10 => s.dev.usable.extractLsb' 0 32
  | 0x14 => s.dev.usable.extractLsb' 32 32
  | 0x18 => s.dev.usable.extractLsb' 64 32
  | 0x1C => s.dev.usable.extractLsb' 96 32
  | 0x20 => w32 (b2n g.pinlock * 4 + b2n g.gpioIrq * 2 + b2n g.coh)
  | 0x24 => s.glbStatus
  | 0x28 => w32 (b2n g.lifeTo.isSome * 2 ^ 31 + s.dev.lifecycle)
  | 0x2C => zext g.resetCause
  | 0x30 => s.tickCtl
  | 0x34 => w32 s.now
  | 0x38 => s.stroke.latch
  | 0x3C => w32 (g.selPort * 2 ^ 12 + g.selItem * 2 ^ 8 + g.selPart)
  | 0x40 => s.partCfg
  | 0x44 => s.powerCtl
  | 0x48 => s.thermStatus
  | 0x4C => g.seq
  | 0x50 => s.dev.faults
  | 0x54 => g.pinmux
  | 0x58 => s.mbistCtl
  | 0x5C => s.mboxWord
  | _ => 0

/-! ### Writes (R457, R489 to R492) -/

/-- Whether an address lies in the map and is word aligned (R457). -/
def cbDecodes (a : Nat) : Bool :=
  decide (a % 4 = 0) &&
    (decide (a ≤ 0x5C) || (decide (0x1000 ≤ a) && decide (a < 0x9000) && decide (a % 0x1000 ≤ 0x9C)))

/-- A write of GLB_THERM_STATUS (R504, R492). -/
def State.wrTherm (s : State) (v : Word) : State :=
  let g := s.glb
  { s with glb := { g with
    alertT := if 60 ≤ wfld v 31 24 ∧ wfld v 31 24 ≤ 105 then wfld v 31 24 else g.alertT
    trip := g.trip && !bit v 18, alert := g.alert && !bit v 17 } }

/-- A write of an offset of the global block (R493). A read-only register ignores it. -/
def State.wrGlb (s : State) (off : Nat) (v : Word) : State :=
  match off with
  | 0x20 => s.wrCtl v
  | 0x28 => s.wrLife v
  | 0x2C => { s with glb := { s.glb with resetCause := s.glb.resetCause &&& ~~~(v.extractLsb' 0 8) } }
  | 0x30 => s.wrTickCtl v
  | 0x3C => { s with glb := { s.glb with selPort := wfld v 15 12, selItem := wfld v 11 8, selPart := wfld v 2 0 } }
  | 0x40 => s.wrPartCfg v
  | 0x44 => s.wrPower v
  | 0x48 => s.wrTherm v
  | 0x50 => { s with dev := { s.dev with faults := s.dev.faults &&& ~~~v } }
  | 0x54 => s.wrPinmux v
  | 0x58 => s.wrMbist v
  | 0x5C => s.wrMbox v
  | _ => s

/-- A write of a decoded address. -/
def State.wrReg (s : State) (a : Nat) (v : Word) : State :=
  if a < 0x1000 then s.wrGlb a v else s.wrTen (a / 0x1000 - 1) (a % 0x1000) v

/-- A read of a decoded address. -/
def State.rdReg (s : State) (a : Nat) : Word :=
  if a < 0x1000 then s.rdGlb a else s.rdTen (a / 0x1000 - 1) (a % 0x1000)

/-- REGISTER_WRITE (R16, R457): a write over the Control Bus with its response. -/
def execRegisterWrite (addr v : Word) (parityOk : Bool) (s : State) : Out :=
  .next (if s.dev.phase = .unpowered ∨ !s.cbOpen then s.cb fun s => s
    else if !parityOk then s.respond 1 0
    else if !cbDecodes addr.toNat then s.respond 2 0
    else s.cb fun s => s.wrReg addr.toNat v)

end Sys2Proof.Machine
end

