-- ==== Sys2Proof/Machine/Jtag.lean ====
section
/-! DEFINITION. The JTAG port (R631, R632, R669 to R675) and the clamp readout (R681, R682). A command is one instruction
with one scan of its data register. -/

namespace Sys2Proof.Machine

/-- The part has power: the TAP is reached. -/
def State.tapOn (s : State) : Bool := s.dev.phase != .unpowered

/-- An instruction stands in the instruction register; its scan shifted out `dr`. -/
def State.scan (s : State) (ir dr : Nat) : State := { s with jtag := { s.jtag with ir, dr } }

/-- Run a JTAG instruction that the clamp freezes (R677): while clamped it shifts out nothing of its own. -/
def State.jtagRun (s : State) (ir : Nat) (f : State → State) : State :=
  if !s.tapOn then s else if s.dev.clamped then s.scan ir 0 else f s

/-- The lifecycle state that the permissions of R631 follow: of the fuses as programmed. -/
def State.fuseLife (s : State) : Nat := lifeOf (tget 0 s.dev.fuses 8)

/-- TAP_RESET (R669): power-on, TRST_N low, or five TCK cycles with TMS high. The instruction is IDCODE. -/
def execTapReset (s : State) : Out :=
  .next (if s.tapOn then { s with jtag := { s.jtag with ir := 0x01, dr := 0 } } else s)

/-- The value of IDCODE (R671), from fuse word 0. -/
def idcodeOf (w : Word) : Nat := wfld w 31 28 * 2 ^ 28 + wfld w 15 0 * 2 ^ 12 + 0x7A3 * 2 + 1

/-- IDCODE (R671). -/
def execIdcode (s : State) : Out := .next (s.jtagRun 0x01 fun s => s.scan 0x01 (idcodeOf (tget 0 s.dev.fuses 0)))

/-- BYPASS (R670): one bit, captured as 0. -/
def execBypass (_dr : Bool) (s : State) : Out := .next (if s.tapOn then s.scan 0xFF 0 else s)

/-- A scan of the boundary register: the pins are captured (a free value, log 8), and the cells updated (R672). -/
def State.boundaryScan (s : State) (ir dr : Nat) : State :=
  let (k, s) := s.draw
  { s with jtag := { s.jtag with ir, dr := Config.boundarySample k % 2 ^ Config.boundaryCells, bsr := dr % 2 ^ Config.boundaryCells } }

/-- SAMPLE_PRELOAD (R670). -/
def execSamplePreload (dr : Nat) (s : State) : Out := .next (s.jtagRun 0x02 fun s => s.boundaryScan 0x02 dr)

/-- An instruction that drives the pins: only while RESET_N is low, at any other time as BYPASS (R673). -/
def State.driveScan (s : State) (ir dr : Nat) : State :=
  s.jtagRun ir fun s => if s.dev.resetLow then s.boundaryScan ir dr else s.scan ir 0

/-- EXTEST (R673). -/
def execExtest (dr : Nat) (s : State) : Out := .next (s.driveScan 0x00 dr)
/-- EXTEST_PULSE (R670, R673). -/
def execExtestPulse (dr : Nat) (s : State) : Out := .next (s.driveScan 0x04 dr)
/-- EXTEST_TRAIN (R670, R673). -/
def execExtestTrain (dr : Nat) (s : State) : Out := .next (s.driveScan 0x05 dr)
/-- HIGHZ (R670, R673): a one-bit register; the pins float while RESET_N is low. -/
def execHighz (_dr : Bool) (s : State) : Out := .next (s.jtagRun 0x08 fun s => s.scan 0x08 0)

/-- What the JTAG port does to the signal pins (R673). -/
inductive JtagPins where
  | none | highZ
  | cells (v : Nat)
  deriving DecidableEq, Repr

/-- What stands on the pins by JTAG: only while RESET_N is low (R673). -/
def State.jtagPins (s : State) : JtagPins :=
  if !s.dev.resetLow || !s.tapOn then .none
  else if s.jtag.ir = 0x00 ∨ s.jtag.ir = 0x04 ∨ s.jtag.ir = 0x05 then .cells s.jtag.bsr
  else if s.jtag.ir = 0x08 then .highZ
  else .none

/-- The fuse array as FUSEREAD shifts it out: word 0 least significant bit first (R670). -/
def fuseScan (t : Tab Word) : Nat := leNat ((List.range 40).flatMap fun i => leBytes 4 (tget 0 t i).toNat)

/-- FUSEREAD (R670). -/
def execFuseread (s : State) : Out := .next (s.jtagRun 0x10 fun s => s.scan 0x10 (fuseScan s.dev.fuses))

/-- BOOTINFO (R674). -/
def bootinfoOf (x : Boot) : Nat := x.version.toNat + x.source * 2 ^ 32 + x.reason * 2 ^ 36 + b2n x.quad * 2 ^ 40
/-- BOOTINFO (R674). -/
def execBootinfo (s : State) : Out := .next (s.jtagRun 0x11 fun s => s.scan 0x11 (bootinfoOf s.boot))

/-- A FUSEPROG register that names a word that JTAG may program (R675). -/
def fuseprogOk (dr : BitVec 40) : Bool :=
  let w := (dr.extractLsb' 32 6).toNat
  dr.extractLsb' 38 2 = 0 && w != 8 && decide (w ≤ 39)

/-- FUSEPROG (R675): in BLANK the 1-bits of the data are set in the word; otherwise it acts as BYPASS (R670). -/
def execFuseprog (dr : BitVec 40) (s : State) : Out :=
  .next (s.jtagRun 0x30 fun s =>
    let s := s.scan 0x30 0
    if s.fuseLife != 0 || s.jtag.fuseBusy || !fuseprogOk dr then s
    else
      let w := (dr.extractLsb' 32 6).toNat
      { s with
        dev := { s.dev with fuses := tset 0 s.dev.fuses w (tget 0 s.dev.fuses w ||| dr.extractLsb' 0 32) }
        jtag := { s.jtag with fuseBusy := true } })

/-- FUSEPROG_DONE (R675): further updates are accepted again. -/
def execFuseprogDone (s : State) : Out :=
  .next (if s.tapOn && !s.dev.clamped then { s with jtag := { s.jtag with fuseBusy := false } } else s)

/-! ### The clamp readout (R681, R682) -/

/-- Secure contents read as 0: in DEPLOYED, and after a wipe trigger while clamped (R632, R367). -/
def State.blanked (s : State) : Bool := (s.fuseLife = 2 && !s.dev.fuseBad) || !s.dev.tamper.isEmpty

/-- The word of four bytes at `a`. -/
def Store.word (m : Store) (a : Nat) : Word := w32 (leNat (m.getBytes a 4))

/-- The memory, by site code, that holds a word of the bench region, where it has check bits there (R348); `cur`: the context whose words
the core holds in place of the context store. -/
def clampSite (cur : Option Nat) (part off : Nat) : Option Nat :=
  if part = 0 then some siteDrawer
  else if part = 1 ∧ off < 65536 then some siteIdrawer
  else if part = 2 ∧ off < 0x16000 then some siteBoards
  else if part = 3 ∧ off < 0x1000 then some siteSlots
  else if part = 4 ∧ off < 0x100 then some siteMailbox
  else if part = 5 ∧ off % 0x1000 < 0x400 ∧ off < 0x2000 ∧ cur ≠ some (fld off 9 8) then some siteContext
  else none

/-- The board file of a bench in the readout: the data word and whether it is secure, as the speculation buffers always are (R632). -/
def clampBoards (v : Bench) (off : Nat) : Word × Bool :=
  if off < 0x10000 then
    let d := v.board (off / 0x1000)
    (d.data.word (off % 0x1000), d.secure)
  else if off < 0x14000 then (v.glue.data.word (off - 0x10000), v.glue.secure)
  else if off < 0x16000 then ((v.buf ((off - 0x14000) / 0x1000)).data.word (off % 0x1000), true)
  else if off < 0x16040 then
    let d := v.board ((off - 0x16000) / 4)
    (w32 (d.rows % 64 + d.rbytes % 64 * 64 + d.ew.toNat * 2 ^ 12 + d.owner.getD 4 * 2 ^ 14 + b2n d.secure * 2 ^ 17), false)
  else if off < 0x16044 then
    (w32 (b2n v.glue.cls.isSome + b2n (v.glue.cls = some true) * 2 + b2n v.glue.secure * 4), false)
  else (0, false)

/-- The Jig state of a context in the readout (PART 5). -/
def clampJig (s : State) (b off : Nat) : Word :=
  let n := fld off 9 8
  let i := fld off 7 2
  let c := (s.bench b).ctx n
  if i < 32 then c.reg (BitVec.ofNat 5 i)
  else if i < 62 then (if jregOk (i - 32) then jregOf s b n (i - 32) else 0)
  else if i = 62 then
    (match c.status with | .empty => 0 | .ready => 1 | .running => 2 | .waiting => 3 | .stalled => 4)
  else c.pc

/-- The mailbox and patch buffer in the readout (PART 4). -/
def clampMail (v : Bench) (off : Nat) : Word :=
  if off < 0x100 then
    match v.mailbox[off / 16]? with
    | none => 0
    | some e =>
      match off % 16 / 4 with
      | 0 => w32 (2 ^ 31 + e.bench.toNat * 2 ^ 12 + e.dev.toNat)
      | 1 => e.w0
      | 2 => e.w1
      | _ => 0
  else
    match v.patch[(off - 0x100) / 8]? with
    | none => 0
    | some e => if off % 8 < 4 then w32 (0x00400000 + e.1) else e.2

/-- The data word at an offset of a part of bench `b`, and whether it is secure contents. -/
def clampBench (s : State) (b part off : Nat) : Word × Bool :=
  let v := s.bench b
  match part with
  | 0 => (w32 (leNat (v.drawer.getBytes off 4)), decide (0x1E0000 ≤ off))
  | 1 => (if off < 65536 then w32 (leNat (v.idrawer.getBytes off 4)) else 0, false)
  | 2 => clampBoards v off
  | 3 =>
    if off < 0x1000 then
      let d := v.slot (off / 256)
      (if off % 256 < 240 then d.img.word (off % 256) else 0, d.secure)
    else if off < 0x1004 then (w32 (v.applied.slot.getD 0 + b2n v.applied.slot.isSome * 16), false)
    else (0, false)
  | 4 => (clampMail v off, false)
  | 5 => (if off < 0x2000 then clampJig s b off else 0, false)
  | 6 =>
    (if off < 0x80 then (v.rack (off / 32)).word (off % 32 / 4)
     else if off = 0x80 then v.seTags
     else if 0x100 ≤ off ∧ off < 0x200 then w32 (v.tags.stat ((off - 0x100) / 4)) else 0, false)
  | _ => (0, false)

/-- The memories have not been cleared since the reset: what they hold is open (R657, R685). -/
def State.uncleared (s : State) : Bool := s.dev.phase = .fuses || s.dev.phase = .clear

/-- The word of a bench region, RAW or corrected (R682). Where the word has an error, what its check bits and its raw data
bits hold is a free value, and so is what a memory holds before the end of the clear (R685). -/
def clampBenchWord (s : State) (b a : Nat) (free : Word) : Word :=
  let part := fld a 26 24
  let off := fld a 20 0 / 4 * 4
  let (w, sec) := clampBench s b part off
  if sec && s.blanked then 0
  else match clampSite (s.bench b).cur part off with
    | none => if bitN a 23 = 1 then 0 else w
    | some site =>
      if s.uncleared && decide (part < 4) then (if bitN a 23 = 1 then free % 512 else free) else
      let at_ := if site = siteMailbox then 16 * (((s.bench b).mailAt + off / 16) % 16) + off % 16
        else if site = siteContext then off % 0x1000 else off
      let e := tget .ok (s.bench b).ecc (eccKey site at_)
      if bitN a 23 = 1 then
        let wide := decide (site = siteBoards ∨ site = siteSlots)
        let lo := if wide then off / 8 * 8 else off
        let word := (clampBench s b part lo).1.toNat + (if wide then (clampBench s b part (lo + 4)).1.toNat * 2 ^ 32 else 0)
        let bits : Byte := if e = .ok then Config.checkBits (if wide then 64 else 32) word else free.extractLsb' 0 8
        w32 (bits.toNat + b2n (decide (e = .poison)) * 256)
      else if e = .double then free else w

/-- The word of a Veneer slice (R682). What a way without a line holds is a free value once a line was filled (log 8). -/
def clampVeneer (s : State) (slice a : Nat) (free : Word) : Word :=
  let err (k : Nat) : Bool := decide (tget Ecc.ok s.veneer.ecc k = .double)
  let open_ : Bool := s.veneer.used || s.uncleared
  if bitN a 24 = 0 then
    let key := vkey (slice * 2048 + fld a 17 7) (fld a 21 18)
    match tfind s.veneer.lines key with
    | none => if open_ then free else 0
    | some l => if err (vdata key (fld a 6 3)) then free else w32 (leNat ((l.data.drop (fld a 6 2 * 4)).take 4))
  else
    let key := vkey (slice * 2048 + fld a 12 2) (fld a 16 13)
    match tfind s.veneer.lines key with
    | none => if s.uncleared then free else if open_ then free &&& 0xBFFFFFFF else 0
    | some l => if err (vtag key) then free else w32 (l.tag % 2 ^ 30 + 2 ^ 30 + b2n l.ref * 2 ^ 31)

/-- The tick plan as one table: the partitions' entries, in the order of the partitions. -/
def State.planTable (s : State) : List DWord := allParts.flatMap fun p => (s.ten p).plan

/-- The word at a location of the readout (R682). Unlisted regions and parts read 0. -/
def clampWord (s : State) (region addr : Nat) (free : Word) : Word :=
  let a := addr / 4 * 4
  if region < 0x80 then clampBenchWord s region addr free
  else if region < 0x90 then clampVeneer s (region - 0x80) addr free
  else if region = 0xC0 then s.rdGlb addr
  else if 0xC1 ≤ region ∧ region ≤ 0xC8 then s.rdTen (region - 0xC1) addr
  else if region = 0xC9 then
    let d := s.dowel (a / 32)
    if 256 ≤ a / 32 then 0
    else match a % 32 / 4 with
      | 0 => d.count
      | 1 => d.target
      | 2 => d.waits.extractLsb' 0 32
      | 3 => d.waits.extractLsb' 32 32
      | 4 => d.waits.extractLsb' 64 32
      | 5 => d.waits.extractLsb' 96 32
      | _ => 0
  else if region = 0xCA then
    match s.planTable[a / 8]? with
    | none => 0
    | some e => if a % 8 < 4 then e.extractLsb' 0 32 else e.extractLsb' 32 32
  else if region = 0xD0 then (if a < 160 then tget 0 s.dev.fuses (a / 4) else 0)
  else if region = 0xE0 then Config.nonArchWord s.noc.image addr
  else 0

/-- CLAMPREAD (R681): the scan shifts out the word that the previous scan named, and latches its own location. -/
def execClampread (region : BitVec 8) (addr : Word) (s : State) : Out :=
  .next (if !s.tapOn then s else
    let (k, s) := s.draw
    let loc := s.jtag.loc
    let data : Word := if s.dev.clamped then clampWord s loc.1 loc.2.toNat (Config.freeWord k) else 0
    { s with jtag := { s.jtag with
      ir := 0x20, dr := data.toNat + loc.2.toNat * 2 ^ 32 + loc.1 * 2 ^ 64, loc := (region.toNat, addr) } })

end Sys2Proof.Machine
end

