-- ==== Sys2Proof/Machine/I3c.lean ====
section
/-! DEFINITION. The I3C management port (R708 to R711). -/

namespace Sys2Proof.Machine

/-- The port answers: from step 2 of the start-up order until reset or clamp, Rest included (R711). -/
def State.i3cServes (s : State) : Bool := s.clocked && decide (s.dev.phase ≠ .fuses)

/-- A command of the port: while it does not serve, it acknowledges no address. -/
def State.i3cRun (s : State) (f : State → State) : State := if s.i3cServes then f s else s

/-- Change the port's state. -/
def State.modI3c (s : State) (f : I3c → I3c) : State := { s with i3c := f s.i3c }

/-- The port answers with bytes. -/
def State.i3cSend (s : State) (l : List Byte) : State := s.modI3c fun c => { c with sent := l }

/-- ENTDAA (R708): a port without a dynamic address sends its provisional ID and takes the address. -/
def execEntdaa (addr : BitVec 7) (s : State) : Out :=
  .next (s.i3cRun fun s => if s.i3c.dyn.isSome then s else s.modI3c fun c => { c with dyn := some addr })

/-- SETDASA (R708): a port without a dynamic address takes one when its static address 0x3A is named. -/
def execSetdasa (static dyn : BitVec 7) (s : State) : Out :=
  .next (s.i3cRun fun s => if static = 0x3A && s.i3c.dyn.isNone then s.modI3c fun c => { c with dyn := some dyn } else s)

/-- RSTDAA (R708): the dynamic address is gone. -/
def execRstdaa (s : State) : Out := .next (s.i3cRun fun s => s.modI3c fun c => { c with dyn := none })

/-- The provisional ID (R708). -/
def State.i3cPid (s : State) : Nat :=
  0x7A3 * 2 ^ 33 + wfld (s.idWord 0) 15 0 * 2 ^ 16 + wfld (s.idWord 3) 26 19 * 2 ^ 8 + wfld (s.idWord 3) 18 11

/-- GETPID (R708): six bytes, the least significant first, as on every interface (R11). -/
def execGetpid (s : State) : Out := .next (s.i3cRun fun s => s.i3cSend (leBytes 6 s.i3cPid))

/-- An answer of `n` bytes whose value the spec does not state (log 6). -/
def State.i3cFree (s : State) (n : Nat) : State :=
  let (k, s) := s.draw
  s.i3cSend ((leBytes 4 (Config.freeWord k).toNat).take n)

/-- GETBCR (R708): one byte; its value is not stated. -/
def execGetbcr (s : State) : Out := .next (s.i3cRun fun s => s.i3cFree 1)
/-- GETDCR (R708): one byte; its value is not stated. -/
def execGetdcr (s : State) : Out := .next (s.i3cRun fun s => s.i3cFree 1)
/-- GETSTATUS (R708): two bytes; their value is not stated. -/
def execGetstatus (s : State) : Out := .next (s.i3cRun fun s => s.i3cFree 2)

/-- PRIVATE_WRITE (R710): one byte, a multiple of 4 below 0x20, sets OFFSET; anything else is ignored. -/
def execPrivateWrite (bytes : List Byte) (s : State) : Out :=
  .next (s.i3cRun fun s =>
    match bytes with
    | [x] => if x.toNat % 4 = 0 ∧ x.toNat < 0x20 then s.modI3c fun c => { c with offset := x.toNat } else s
    | _ => s)

/-- The register at an OFFSET (R710). -/
def State.i3cReg (s : State) (off : Nat) : Word :=
  match off with
  | 0x00 => s.idWord 0
  | 0x04 => s.idWord 1
  | 0x08 => s.idWord 2
  | 0x0C => s.idWord 3
  | 0x10 => s.glbStatus
  | 0x14 => s.thermStatus
  | 0x18 => s.dev.faults
  | _ => zext s.glb.resetCause

/-- PRIVATE_READ (R710): four bytes of the register at OFFSET, little-endian; OFFSET advances modulo 0x20. -/
def execPrivateRead (s : State) : Out :=
  .next (s.i3cRun fun s =>
    (s.i3cSend (leBytes 4 (s.i3cReg s.i3c.offset).toNat)).modI3c fun c => { c with offset := (c.offset + 4) % 0x20 })

end Sys2Proof.Machine
end

