-- ==== Sys2Proof/Machine/JigDecode.lean ====
section
/-! DEFINITION. Decoding of the Jig instruction word (R141, R142 and the layouts of chapter 04), and the instruction that
a reserved encoding is (R21, R142). -/

namespace Sys2Proof.Machine

/-- Bits `hi` to `lo` of an instruction word, as a field of `n` bits. -/
def ifld (w : Word) (lo n : Nat) : BitVec n := w.extractLsb' lo n

/-- An instruction, when the bits that must be 0 are (R142). -/
def guard0 (ok : Bool) (i : Instr) : Option Instr := if ok then some i else none

/-- Format R with opcode 0x00 (R149). -/
def decodeAlu (b : Bench7) (w : Word) : Option Instr :=
  let d := ifld w 21 5
  let a := ifld w 16 5
  let c := ifld w 11 5
  match (ifld w 0 11).toNat with
  | 0x000 => some (.add b d a c)
  | 0x001 => some (.sub b d a c)
  | 0x002 => some (.and_ b d a c)
  | 0x003 => some (.andn b d a c)
  | 0x004 => some (.or_ b d a c)
  | 0x005 => some (.xor b d a c)
  | 0x006 => some (.sll b d a c)
  | 0x007 => some (.srl b d a c)
  | 0x008 => some (.sra b d a c)
  | 0x009 => some (.slt b d a c)
  | 0x00A => some (.sltu b d a c)
  | 0x00B => some (.min b d a c)
  | 0x00C => some (.max b d a c)
  | 0x00D => some (.minu b d a c)
  | 0x00E => some (.maxu b d a c)
  | 0x00F => guard0 (c = 0) (.clz b d a)
  | 0x010 => guard0 (c = 0) (.popc b d a)
  | 0x020 => some (.slli b d a c)
  | 0x021 => some (.srli b d a c)
  | 0x022 => some (.srai b d a c)
  | _ => none

/-- The system group (R156). -/
def decodeSys (b : Bench7) (w : Word) : Option Instr :=
  let d := ifld w 21 5
  let a := ifld w 16 5
  let imm := ifld w 0 10
  match (ifld w 10 6).toNat with
  | 0x00 => guard0 (a = 0 && imm.extractLsb' 5 5 = 0) (.mfj b d (imm.extractLsb' 0 5))
  | 0x01 => guard0 (d = 0 && imm.extractLsb' 5 5 = 0) (.mtj b (imm.extractLsb' 0 5) a)
  | 0x02 => guard0 (d = 0 && a = 0 && imm.extractLsb' 2 8 = 0) (.setmode b (imm.extractLsb' 0 2))
  | 0x03 => guard0 (d = 0 && a = 0 && imm = 0) (.isync b)
  | 0x04 => guard0 (d = 0 && a = 0 && imm = 0) (.wstroke b)
  | 0x05 => guard0 (d = 0 && a = 0 && imm = 0) (.yield b)
  | 0x06 => guard0 (d = 0 && a = 0 && imm = 0) (.tend b)
  | 0x07 => guard0 (d = 0 && a = 0 && imm.extractLsb' 8 2 = 0) (.trap b (imm.extractLsb' 0 8))
  | 0x08 => guard0 (d = 0 && a = 0 && imm = 0) (.eret b)
  | _ => none

/-- The glue-up group and RELEASE (R164). -/
def decodeGlue (b : Bench7) (w : Word) : Option Instr :=
  let bs := ifld w 22 4
  let bi := ifld w 18 4
  let ty := ifld w 15 3
  let row0 := ifld w 6 6
  if ifld w 12 3 != 0 || ifld w 4 2 != 0 then none
  else match (ifld w 0 4).toNat with
  | 0 => guard0 (bs = 0 && bi = 0 && row0 = 0) (.accz b ty)
  | 1 => guard0 (bi = 0) (.acc b bs ty row0)
  | 2 => guard0 (row0 = 0) (.acci b bs bi ty)
  | 3 => guard0 (bs = 0 && bi = 0 && ty = 0 && row0 = 0) (.releaseGu b)
  | 4 => guard0 (bi = 0 && ty = 0 && row0 = 0) (.releaseBs b bs)
  | _ => none

/-- The Marquetry group (R169). -/
def decodeMarq (b : Bench7) (w : Word) : Option Instr :=
  let bd := ifld w 22 4
  let bs := ifld w 18 4
  let p := ifld w 14 4
  let dir := bit w 13
  let kt := ifld w 11 2
  let k := ifld w 3 8
  let ra := ifld w 8 5
  match (ifld w 0 3).toNat with
  | 0 => guard0 (ifld w 3 11 = 0) (.perm b bd bs p)
  | 1 => guard0 (ifld w 3 15 = 0) (.trn b bd bs)
  | 2 => guard0 (ifld w 3 15 = 0) (.btrn b bd bs)
  | 3 => guard0 (bd = 0 && ifld w 3 11 = 0) (.ksi b p bs)
  | 4 => guard0 (bd = 0 && k = 0) (.ksr b p bs kt dir)
  | 5 => guard0 (bd = 0) (.ktk b p bs kt dir k)
  | 6 => guard0 (bd = 0 && bs = 0 && !dir && ifld w 3 5 = 0) (.psv b ra p)
  | _ => guard0 (bd = 0 && bs = 0 && !dir && ifld w 3 5 = 0) (.prs b p ra)

/-- The stream and rack group (R178). -/
def decodeStream (b : Bench7) (w : Word) : Option Instr :=
  let d := ifld w 21 5
  let a := ifld w 16 5
  let r := ifld w 4 2
  if ifld w 6 10 != 0 then none
  else match (ifld w 0 4).toNat with
  | 0 => guard0 (r = 0) (.sgo b d a)
  | 1 => guard0 (r = 0) (.twait b d a)
  | 2 => guard0 (r = 0) (.ttest b d a)
  | 3 => guard0 (a = 0) (.rres b d r)
  | 4 => guard0 (d = 0 && a = 0) (.rcmt b r)
  | 5 => guard0 (a = 0) (.racq b d r)
  | 6 => guard0 (d = 0 && a = 0) (.rrel b r)
  | _ => none

/-- The message group (R181). -/
def decodeMsg (b : Bench7) (w : Word) : Option Instr :=
  let d := ifld w 21 5
  let a := ifld w 16 5
  if ifld w 3 13 != 0 then none
  else match (ifld w 0 3).toNat with
  | 0 => some (.msgPut b d a)
  | 1 => some (.msgGet b d a)
  | 2 => some (.msgAccum b d a)
  | 3 => some (.msgPost b d a)
  | _ => none

/-- The dowel group (R184): RD of DSETT, DWAIT and DCLR takes the tag of a remote operation. R184 marks only
bits 10:3 as 0, so an RB that an operation does not use may hold anything (DEDUCED, log 61). -/
def decodeDow (b : Bench7) (w : Word) : Option Instr :=
  let d := ifld w 21 5
  let a := ifld w 16 5
  let c := ifld w 11 5
  if ifld w 3 8 != 0 then none
  else match (ifld w 0 3).toNat with
  | 0 => some (.dadd b d a c)
  | 1 => some (.dsett b d a c)
  | 2 => some (.dwait b d a)
  | 3 => some (.drd b d a)
  | 4 => some (.dclr b d a)
  | _ => none

/-- The instruction that a word encodes for bench `b`, or none for a reserved encoding (R141, R142). -/
def decodeJig (b : Bench7) (w : Word) : Option Instr :=
  let d := ifld w 21 5
  let a := ifld w 16 5
  let imm := ifld w 0 16
  match (ifld w 26 6).toNat with
  | 0x00 => decodeAlu b w
  | 0x01 => some (.addi b d a imm)
  | 0x02 => some (.andi b d a imm)
  | 0x03 => some (.ori b d a imm)
  | 0x04 => some (.xori b d a imm)
  | 0x05 => some (.slti b d a imm)
  | 0x06 => some (.sltiu b d a imm)
  | 0x07 => guard0 (a = 0) (.lui b d imm)
  | 0x10 => some (.lb b d a imm)
  | 0x11 => some (.lbu b d a imm)
  | 0x12 => some (.lh b d a imm)
  | 0x13 => some (.lhu b d a imm)
  | 0x14 => some (.lw b d a imm)
  | 0x18 => some (.sb b d a imm)
  | 0x19 => some (.sh b d a imm)
  | 0x1A => some (.sw b d a imm)
  | 0x20 => some (.beq b d a imm)
  | 0x21 => some (.bne b d a imm)
  | 0x22 => some (.blt b d a imm)
  | 0x23 => some (.bge b d a imm)
  | 0x24 => some (.bltu b d a imm)
  | 0x25 => some (.bgeu b d a imm)
  | 0x26 => some (.j b (ifld w 0 26))
  | 0x27 => some (.jal b (ifld w 0 26))
  | 0x28 => guard0 (d = 0 && imm = 0) (.jr b a)
  | 0x29 => guard0 (d = 0 && imm = 0) (.jalr b a)
  | 0x2C => guard0 (ifld w 21 3 = 0) (.loop b (ifld w 24 2) a imm)
  | 0x2D => some (.loopi b (ifld w 24 2) (ifld w 12 12) (ifld w 0 12))
  | 0x30 => decodeSys b w
  | 0x33 => guard0 (ifld w 12 1 = 0) (.drain b (ifld w 24 2) (bit w 23) (ifld w 18 5) (ifld w 13 5) (ifld w 6 6) (ifld w 0 6))
  | 0x34 => guard0 (ifld w 14 8 = 0) (.shape b (ifld w 22 4) (ifld w 6 6) (ifld w 0 6) (ifld w 12 2))
  | 0x35 => guard0 (ifld w 0 11 = 0) (.bld b (ifld w 22 4) (bit w 21) a (ifld w 11 5))
  | 0x36 => guard0 (ifld w 0 11 = 0) (.bst b (ifld w 22 4) (bit w 21) a (ifld w 11 5))
  | 0x37 => decodeGlue b w
  | 0x38 => decodeMarq b w
  | 0x3C => decodeStream b w
  | 0x3D => decodeMsg b w
  | 0x3E => decodeDow b w
  | _ => none

/-- RESERVED_ENCODING (R141, R142): the word at the issuing address is a reserved encoding and raises ILLEGAL. A word
that encodes an instruction is no such event, and changes nothing. -/
def execReservedEncoding (b : Bench7) (w : Word) (s : State) : Out :=
  .next (if (decodeJig b w).isSome then s else issue b .plain never [] (fun _ => .exc exILLEGAL none) s)

end Sys2Proof.Machine
end

