-- ==== Sys2Proof/Machine/Dispatch.lean ====
section
/-! DEFINITION. The dispatch: one arm per command, in the table's order. -/

namespace Sys2Proof.Machine

/-- The effect of a command on everything but the queue. -/
def exec (i : Instr) (s : State) : Host.Outcome State Fault Refusal :=
  match i with
  | .add b rd ra rb => Sys2Proof.Machine.execAdd b rd ra rb s
  | .sub b rd ra rb => Sys2Proof.Machine.execSub b rd ra rb s
  | .and_ b rd ra rb => Sys2Proof.Machine.execAnd b rd ra rb s
  | .andn b rd ra rb => Sys2Proof.Machine.execAndn b rd ra rb s
  | .or_ b rd ra rb => Sys2Proof.Machine.execOr b rd ra rb s
  | .xor b rd ra rb => Sys2Proof.Machine.execXor b rd ra rb s
  | .sll b rd ra rb => Sys2Proof.Machine.execSll b rd ra rb s
  | .srl b rd ra rb => Sys2Proof.Machine.execSrl b rd ra rb s
  | .sra b rd ra rb => Sys2Proof.Machine.execSra b rd ra rb s
  | .slt b rd ra rb => Sys2Proof.Machine.execSlt b rd ra rb s
  | .sltu b rd ra rb => Sys2Proof.Machine.execSltu b rd ra rb s
  | .min b rd ra rb => Sys2Proof.Machine.execMin b rd ra rb s
  | .max b rd ra rb => Sys2Proof.Machine.execMax b rd ra rb s
  | .minu b rd ra rb => Sys2Proof.Machine.execMinu b rd ra rb s
  | .maxu b rd ra rb => Sys2Proof.Machine.execMaxu b rd ra rb s
  | .clz b rd ra => Sys2Proof.Machine.execClz b rd ra s
  | .popc b rd ra => Sys2Proof.Machine.execPopc b rd ra s
  | .slli b rd ra n => Sys2Proof.Machine.execSlli b rd ra n s
  | .srli b rd ra n => Sys2Proof.Machine.execSrli b rd ra n s
  | .srai b rd ra n => Sys2Proof.Machine.execSrai b rd ra n s
  | .addi b rd ra imm => Sys2Proof.Machine.execAddi b rd ra imm s
  | .andi b rd ra imm => Sys2Proof.Machine.execAndi b rd ra imm s
  | .ori b rd ra imm => Sys2Proof.Machine.execOri b rd ra imm s
  | .xori b rd ra imm => Sys2Proof.Machine.execXori b rd ra imm s
  | .slti b rd ra imm => Sys2Proof.Machine.execSlti b rd ra imm s
  | .sltiu b rd ra imm => Sys2Proof.Machine.execSltiu b rd ra imm s
  | .lui b rd imm => Sys2Proof.Machine.execLui b rd imm s
  | .lb b rd ra imm => Sys2Proof.Machine.execLb b rd ra imm s
  | .lbu b rd ra imm => Sys2Proof.Machine.execLbu b rd ra imm s
  | .lh b rd ra imm => Sys2Proof.Machine.execLh b rd ra imm s
  | .lhu b rd ra imm => Sys2Proof.Machine.execLhu b rd ra imm s
  | .lw b rd ra imm => Sys2Proof.Machine.execLw b rd ra imm s
  | .sb b rs ra imm => Sys2Proof.Machine.execSb b rs ra imm s
  | .sh b rs ra imm => Sys2Proof.Machine.execSh b rs ra imm s
  | .sw b rs ra imm => Sys2Proof.Machine.execSw b rs ra imm s
  | .beq b ra rb off => Sys2Proof.Machine.execBeq b ra rb off s
  | .bne b ra rb off => Sys2Proof.Machine.execBne b ra rb off s
  | .blt b ra rb off => Sys2Proof.Machine.execBlt b ra rb off s
  | .bge b ra rb off => Sys2Proof.Machine.execBge b ra rb off s
  | .bltu b ra rb off => Sys2Proof.Machine.execBltu b ra rb off s
  | .bgeu b ra rb off => Sys2Proof.Machine.execBgeu b ra rb off s
  | .j b off => Sys2Proof.Machine.execJ b off s
  | .jal b off => Sys2Proof.Machine.execJal b off s
  | .jr b ra => Sys2Proof.Machine.execJr b ra s
  | .jalr b ra => Sys2Proof.Machine.execJalr b ra s
  | .loop b lvl rc off => Sys2Proof.Machine.execLoop b lvl rc off s
  | .loopi b lvl cnt off => Sys2Proof.Machine.execLoopi b lvl cnt off s
  | .mfj b rd idx => Sys2Proof.Machine.execMfj b rd idx s
  | .mtj b idx ra => Sys2Proof.Machine.execMtj b idx ra s
  | .setmode b m => Sys2Proof.Machine.execSetmode b m s
  | .isync b => Sys2Proof.Machine.execIsync b s
  | .wstroke b => Sys2Proof.Machine.execWstroke b s
  | .yield b => Sys2Proof.Machine.execYield b s
  | .tend b => Sys2Proof.Machine.execTend b s
  | .trap b n => Sys2Proof.Machine.execTrap b n s
  | .eret b => Sys2Proof.Machine.execEret b s
  | .shape b bd rows rbytes ew => Sys2Proof.Machine.execShape b bd rows rbytes ew s
  | .bld b bd t ra rb => Sys2Proof.Machine.execBld b bd t ra rb s
  | .bst b bs t ra rb => Sys2Proof.Machine.execBst b bs t ra rb s
  | .accz b ty => Sys2Proof.Machine.execAccz b ty s
  | .acc b bs ty row0 => Sys2Proof.Machine.execAcc b bs ty row0 s
  | .acci b bs bi ty => Sys2Proof.Machine.execAcci b bs bi ty s
  | .releaseGu b => Sys2Proof.Machine.execReleaseGu b s
  | .releaseBs b bs => Sys2Proof.Machine.execReleaseBs b bs s
  | .drain b fmt t ra rb row0 nrows => Sys2Proof.Machine.execDrain b fmt t ra rb row0 nrows s
  | .perm b bd bs p => Sys2Proof.Machine.execPerm b bd bs p s
  | .trn b bd bs => Sys2Proof.Machine.execTrn b bd bs s
  | .btrn b bd bs => Sys2Proof.Machine.execBtrn b bd bs s
  | .ksi b p bs => Sys2Proof.Machine.execKsi b p bs s
  | .ksr b p bs kt dir => Sys2Proof.Machine.execKsr b p bs kt dir s
  | .ktk b p bs kt dir k => Sys2Proof.Machine.execKtk b p bs kt dir k s
  | .psv b ra p => Sys2Proof.Machine.execPsv b ra p s
  | .prs b p ra => Sys2Proof.Machine.execPrs b p ra s
  | .sgo b rd ra => Sys2Proof.Machine.execSgo b rd ra s
  | .twait b rd ra => Sys2Proof.Machine.execTwait b rd ra s
  | .ttest b rd ra => Sys2Proof.Machine.execTtest b rd ra s
  | .rres b rd rack => Sys2Proof.Machine.execRres b rd rack s
  | .rcmt b rack => Sys2Proof.Machine.execRcmt b rack s
  | .racq b rd rack => Sys2Proof.Machine.execRacq b rd rack s
  | .rrel b rack => Sys2Proof.Machine.execRrel b rack s
  | .msgPut b rd ra => Sys2Proof.Machine.execMsgPut b rd ra s
  | .msgGet b rd ra => Sys2Proof.Machine.execMsgGet b rd ra s
  | .msgAccum b rd ra => Sys2Proof.Machine.execMsgAccum b rd ra s
  | .msgPost b rd ra => Sys2Proof.Machine.execMsgPost b rd ra s
  | .dadd b rd ra rb => Sys2Proof.Machine.execDadd b rd ra rb s
  | .dsett b rd ra rb => Sys2Proof.Machine.execDsett b rd ra rb s
  | .dwait b rd ra => Sys2Proof.Machine.execDwait b rd ra s
  | .drd b rd ra => Sys2Proof.Machine.execDrd b rd ra s
  | .dclr b rd ra => Sys2Proof.Machine.execDclr b rd ra s
  | .interruptEntry b => Sys2Proof.Machine.execInterruptEntry b s
  | .deadlinePending b => Sys2Proof.Machine.execDeadlinePending b s
  | .branchResolve b => Sys2Proof.Machine.execBranchResolve b s
  | .marquetryComplete b u => Sys2Proof.Machine.execMarquetryComplete b u s
  | .lockstepMismatch b stream => Sys2Proof.Machine.execLockstepMismatch b stream s
  | .strokeBoundary => Sys2Proof.Machine.execStrokeBoundary s
  | .drainEnd b => Sys2Proof.Machine.execDrainEnd b s
  | .stroke port m => Sys2Proof.Machine.execStroke port m s
  | .strokeHoldover => Sys2Proof.Machine.execStrokeHoldover s
  | .enterMaster => Sys2Proof.Machine.execEnterMaster s
  | .strokeFreerun => Sys2Proof.Machine.execStrokeFreerun s
  | .latencyMeasure port now => Sys2Proof.Machine.execLatencyMeasure port now s
  | .timingReq port ts turnaround => Sys2Proof.Machine.execTimingReq port ts turnaround s
  | .timingRsp port ts turnaround now => Sys2Proof.Machine.execTimingRsp port ts turnaround now s
  | .slotStart port slot => Sys2Proof.Machine.execSlotStart port slot s
  | .idle port h => Sys2Proof.Machine.execIdle port h s
  | .slotData port h payload => Sys2Proof.Machine.execSlotData port h payload s
  | .slotEnd port h payload => Sys2Proof.Machine.execSlotEnd port h payload s
  | .put port h m data => Sys2Proof.Machine.execPut port h m data s
  | .get port h m => Sys2Proof.Machine.execGet port h m s
  | .getData port h m data => Sys2Proof.Machine.execGetData port h m data s
  | .accumulate port h m data => Sys2Proof.Machine.execAccumulate port h m data s
  | .post port h m => Sys2Proof.Machine.execPost port h m s
  | .dowel port h m => Sys2Proof.Machine.execDowel port h m s
  | .ack port h m => Sys2Proof.Machine.execAck port h m s
  | .train port t => Sys2Proof.Machine.execTrain port t s
  | .linkTrainingStep port => Sys2Proof.Machine.execLinkTrainingStep port s
  | .linkTrainTimeout port => Sys2Proof.Machine.execLinkTrainTimeout port s
  | .linkTrainRetry port => Sys2Proof.Machine.execLinkTrainRetry port s
  | .linkMarginCheck port berHigh margin uncorrectable => Sys2Proof.Machine.execLinkMarginCheck port berHigh margin uncorrectable s
  | .linkDown port cause => Sys2Proof.Machine.execLinkDown port cause s
  | .msgTimeout b tag => Sys2Proof.Machine.execMsgTimeout b tag s
  | .bypassPump mv => Sys2Proof.Machine.execBypassPump mv s
  | .nocRequest n bad => Sys2Proof.Machine.execNocRequest n bad s
  | .nocResponse n => Sys2Proof.Machine.execNocResponse n s
  | .nocData n crcOk bad => Sys2Proof.Machine.execNocData n crcOk bad s
  | .ageIncrement mesh n => Sys2Proof.Machine.execAgeIncrement mesh n s
  | .nocWatchdog b tag => Sys2Proof.Machine.execNocWatchdog b tag s
  | .portRetry b cls portB write addr data => Sys2Proof.Machine.execPortRetry b cls portB write addr data s
  | .patrolScrub site => Sys2Proof.Machine.execPatrolScrub site s
  | .forcedScrub b cls quarter => Sys2Proof.Machine.execForcedScrub b cls quarter s
  | .scrubVerify b => Sys2Proof.Machine.execScrubVerify b s
  | .secureWipeDone micros => Sys2Proof.Machine.execSecureWipeDone micros s
  | .clearDone => Sys2Proof.Machine.execClearDone s
  | .benchClearDone b => Sys2Proof.Machine.execBenchClearDone b s
  | .veneerInvalDone part => Sys2Proof.Machine.execVeneerInvalDone part s
  | .glbMbistCtl v => Sys2Proof.Machine.execGlbMbistCtl v s
  | .planeRunBegin b => Sys2Proof.Machine.execPlaneRunBegin b s
  | .planeRunEnd fails => Sys2Proof.Machine.execPlaneRunEnd fails s
  | .descriptorFetch b => Sys2Proof.Machine.execDescriptorFetch b s
  | .transferIssue b => Sys2Proof.Machine.execTransferIssue b s
  | .transferComplete b tag => Sys2Proof.Machine.execTransferComplete b tag s
  | .rdData m tag refused poison data => Sys2Proof.Machine.execRdData m tag refused poison data s
  | .wrAck m tag refused => Sys2Proof.Machine.execWrAck m tag refused s
  | .snpInv m tag addr => Sys2Proof.Machine.execSnpInv m tag addr s
  | .hppRetrain m line ok => Sys2Proof.Machine.execHppRetrain m line ok s
  | .hppTimeout m ok => Sys2Proof.Machine.execHppTimeout m ok s
  | .registerWrite addr v parityOk => Sys2Proof.Machine.execRegisterWrite addr v parityOk s
  | .glbTickCountLo => Sys2Proof.Machine.execGlbTickCountLo s
  | .glbTickCtl v => Sys2Proof.Machine.execGlbTickCtl v s
  | .swrst v => Sys2Proof.Machine.execSwrst v s
  | .lifecycleAdvance v => Sys2Proof.Machine.execLifecycleAdvance v s
  | .lifecycleDone => Sys2Proof.Machine.execLifecycleDone s
  | .partCfgBench v => Sys2Proof.Machine.execPartCfgBench v s
  | .partCfgSlots v => Sys2Proof.Machine.execPartCfgSlots v s
  | .partCfgWaysAllowed v => Sys2Proof.Machine.execPartCfgWaysAllowed v s
  | .partCfgControl v => Sys2Proof.Machine.execPartCfgControl v s
  | .restRequest v => Sys2Proof.Machine.execRestRequest v s
  | .restWake v => Sys2Proof.Machine.execRestWake v s
  | .restEnter => Sys2Proof.Machine.execRestEnter s
  | .restExit vsramOk vaonOk => Sys2Proof.Machine.execRestExit vsramOk vaonOk s
  | .addrLo v => Sys2Proof.Machine.execAddrLo v s
  | .addrHi v => Sys2Proof.Machine.execAddrHi v s
  | .linkConfig v => Sys2Proof.Machine.execLinkConfig v s
  | .policySet v => Sys2Proof.Machine.execPolicySet v s
  | .policyGet v => Sys2Proof.Machine.execPolicyGet v s
  | .telemetry v => Sys2Proof.Machine.execTelemetry v s
  | .linkStatus v => Sys2Proof.Machine.execLinkStatus v s
  | .benchRetire v => Sys2Proof.Machine.execBenchRetire v s
  | .benchReadmit v fail => Sys2Proof.Machine.execBenchReadmit v fail s
  | .unknownOp v => Sys2Proof.Machine.execUnknownOp v s
  | .glbPinmux v => Sys2Proof.Machine.execGlbPinmux v s
  | .parkEnd pin => Sys2Proof.Machine.execParkEnd pin s
  | .cancel part => Sys2Proof.Machine.execCancel part s
  | .resume part => Sys2Proof.Machine.execResume part s
  | .cmdEnable part => Sys2Proof.Machine.execCmdEnable part s
  | .cmdDisable part => Sys2Proof.Machine.execCmdDisable part s
  | .evlogEnable part => Sys2Proof.Machine.execEvlogEnable part s
  | .evlogDisable part => Sys2Proof.Machine.execEvlogDisable part s
  | .doorbell part v => Sys2Proof.Machine.execDoorbell part v s
  | .tenCplHead part v => Sys2Proof.Machine.execTenCplHead part v s
  | .tenXlatCtl part v => Sys2Proof.Machine.execTenXlatCtl part v s
  | .tenXlatInval part v => Sys2Proof.Machine.execTenXlatInval part v s
  | .xlatInvalDone part => Sys2Proof.Machine.execXlatInvalDone part s
  | .tenIrqStatus part v => Sys2Proof.Machine.execTenIrqStatus part v s
  | .tenIrqMask part v => Sys2Proof.Machine.execTenIrqMask part v s
  | .tenVeneerWays part v => Sys2Proof.Machine.execTenVeneerWays part v s
  | .dowelDataAdd part v => Sys2Proof.Machine.execDowelDataAdd part v s
  | .dowelDataTarget part v => Sys2Proof.Machine.execDowelDataTarget part v s
  | .dowelDataClear part v => Sys2Proof.Machine.execDowelDataClear part v s
  | .commandFetch part => Sys2Proof.Machine.execCommandFetch part s
  | .nop part => Sys2Proof.Machine.execNop part s
  | .load part => Sys2Proof.Machine.execLoad part s
  | .run part => Sys2Proof.Machine.execRun part s
  | .seal part => Sys2Proof.Machine.execSeal part s
  | .planLoad part => Sys2Proof.Machine.execPlanLoad part s
  | .barrier part => Sys2Proof.Machine.execBarrier part s
  | .completionWrite part => Sys2Proof.Machine.execCompletionWrite part s
  | .eventAccept source => Sys2Proof.Machine.execEventAccept source s
  | .powerLoop milliwatts => Sys2Proof.Machine.execPowerLoop milliwatts s
  | .powerRelease => Sys2Proof.Machine.execPowerRelease s
  | .thermalCheck readings => Sys2Proof.Machine.execThermalCheck readings s
  | .columnEvaluation col => Sys2Proof.Machine.execColumnEvaluation col s
  | .telemetryFrame col frame => Sys2Proof.Machine.execTelemetryFrame col frame s
  | .telemetryLoss col long => Sys2Proof.Machine.execTelemetryLoss col long s
  | .clockMonitor domain => Sys2Proof.Machine.execClockMonitor domain s
  | .fanTach pin => Sys2Proof.Machine.execFanTach pin s
  | .tamper src measured => Sys2Proof.Machine.execTamper src measured s
  | .foremanLane lane => Sys2Proof.Machine.execForemanLane lane s
  | .foremanWatchdog => Sys2Proof.Machine.execForemanWatchdog s
  | .powerOn => Sys2Proof.Machine.execPowerOn s
  | .pwrokFall aonHeld => Sys2Proof.Machine.execPwrokFall aonHeld s
  | .resetN => Sys2Proof.Machine.execResetN s
  | .resetRelease => Sys2Proof.Machine.execResetRelease s
  | .fuseLoad => Sys2Proof.Machine.execFuseLoad s
  | .hppTrained m ok => Sys2Proof.Machine.execHppTrained m ok s
  | .bootImageCheck sfdp quad image => Sys2Proof.Machine.execBootImageCheck sfdp quad image s
  | .flashTimeout => Sys2Proof.Machine.execFlashTimeout s
  | .clamp => Sys2Proof.Machine.execClamp s
  | .tapReset => Sys2Proof.Machine.execTapReset s
  | .extest dr => Sys2Proof.Machine.execExtest dr s
  | .idcode => Sys2Proof.Machine.execIdcode s
  | .samplePreload dr => Sys2Proof.Machine.execSamplePreload dr s
  | .extestPulse dr => Sys2Proof.Machine.execExtestPulse dr s
  | .extestTrain dr => Sys2Proof.Machine.execExtestTrain dr s
  | .highz dr => Sys2Proof.Machine.execHighz dr s
  | .fuseread => Sys2Proof.Machine.execFuseread s
  | .bootinfo => Sys2Proof.Machine.execBootinfo s
  | .clampread region addr => Sys2Proof.Machine.execClampread region addr s
  | .fuseprog dr => Sys2Proof.Machine.execFuseprog dr s
  | .bypass dr => Sys2Proof.Machine.execBypass dr s
  | .entdaa addr => Sys2Proof.Machine.execEntdaa addr s
  | .setdasa static dyn => Sys2Proof.Machine.execSetdasa static dyn s
  | .rstdaa => Sys2Proof.Machine.execRstdaa s
  | .getpid => Sys2Proof.Machine.execGetpid s
  | .getbcr => Sys2Proof.Machine.execGetbcr s
  | .getdcr => Sys2Proof.Machine.execGetdcr s
  | .getstatus => Sys2Proof.Machine.execGetstatus s
  | .privateWrite bytes => Sys2Proof.Machine.execPrivateWrite bytes s
  | .privateRead => Sys2Proof.Machine.execPrivateRead s
  | .reservedEncoding b w => Sys2Proof.Machine.execReservedEncoding b w s
  | .flitCrcFailure port => Sys2Proof.Machine.execFlitCrcFailure port s
  | .hppFrame m f => Sys2Proof.Machine.execHppFrame m f s
  | .tamperDeassert src => Sys2Proof.Machine.execTamperDeassert src s
  | .fuseprogDone => Sys2Proof.Machine.execFuseprogDone s

end Sys2Proof.Machine
end

