-- ==== Sys2Proof/Machine/Tick.lean ====
section
/-! DEFINITION. What an idle step does: with no command waiting, one stroke-reference cycle passes (DESIGN CHOICE, log 1). -/

namespace Sys2Proof.Machine

/-- A column's clock advances by one stroke-reference cycle: FREQ hundredths of a column cycle (R34, R98). -/
def Column.tick (k : Column) : Column := { k with cyc := k.cyc + (k.frac + k.freq) / 100, frac := (k.frac + k.freq) % 100 }

/-- Every column's clock advances by one stroke-reference cycle. -/
def tickCols (cols : Tab Column) : Tab Column := (List.range 16).foldl (fun t c => tmod {} t c Column.tick) cols

/-- One stroke-reference cycle passes: the stroke reference counts it, and outside Rest the columns do, and the NoC, whose clock is that
of the stroke reference (R35, R375), moves its flits. -/
def State.tick (s : State) : State :=
  if s.clocked then
    { s with
      stroke := { s.stroke with cycle := s.stroke.cycle + 1 }, cols := if s.alive then tickCols s.cols else s.cols
      noc := if s.alive then s.noc.tick else s.noc }
  else s

end Sys2Proof.Machine
end

