-- ==== Sys2Proof/Safety.lean ====
section
/-! DEFINITION. What the claims are stated in terms of: when an instruction of a bench issues, what its retire leaves, and the
invariants of the block. -/

namespace Sys2Proof.Machine

/-! ### An instruction that issues -/

/-- Bench `b` issues its next instruction, of kind `kind` and reading or writing the registers `uses`: its task runs, nothing is
taken in the instruction's place (R59, R121, R130, R369, R102, R103, R110), no window load has still to write one of the
registers (R146), and what the instruction must wait for is over: older instructions have committed, with no misprediction among
them, or there is room in flight (R107, R143). `retire`: it waits for retire. -/
def State.issues (s : State) (b : Nat) (kind : Kind) (uses : List Reg) (retire : Bool) : Bool :=
  s.canRun b && (s.before b kind).isNone && (s.bench b).takeable.isNone && !(s.bench b).blocked uses && (s.letIn b retire).2

/-- The state in which the body of the issuing instruction runs: what it waited for has committed (R107, R143), a corrected
error of the fetched word is reported (R368), and the bench counts it (R591). -/
def State.atIssue (s : State) (b : Nat) (retire : Bool) : State :=
  ((s.letIn b retire).1.eccReports b (s.bench b).badFetch).tally b

/-- The instruction at issue in `u` retires with the state `t` that its body left: the loop-end test, the end of a delay slot
and of a SETMODE shadow (R109, R103, R101). `post` takes effect after the loop-end test (R133). -/
def State.retiresFrom (u t : State) (b : Nat) (next : Option Word := none) (post : State → State := id) : State :=
  t.retireInsn b (u.cc b).modeShadow (u.cc b).delay post next

/-- The instruction at issue in `u` retires after changing its context by `f`. -/
def State.retires (u : State) (b : Nat) (f : Ctx → Ctx) (next : Option Word := none) : State :=
  u.retiresFrom (u.modCc b f) b next

/-- The instruction at issue in `u` retires after writing `v` to register `rd`. -/
def State.writes (u : State) (b : Nat) (rd : Reg) (v : Word) : State := u.retires b fun c => c.setReg rd v

/-- The instructions that write at most one general register and raise nothing once they issue: the bench, the kind, the
registers they use, and the register that they write (R149, R150, R152, R153). -/
def regOnly : Instr → Option (Bench7 × Kind × List Reg × Option Reg)
  | .add b rd ra rb | .sub b rd ra rb | .and_ b rd ra rb | .andn b rd ra rb | .or_ b rd ra rb | .xor b rd ra rb
  | .sll b rd ra rb | .srl b rd ra rb | .sra b rd ra rb | .slt b rd ra rb | .sltu b rd ra rb
  | .min b rd ra rb | .max b rd ra rb | .minu b rd ra rb | .maxu b rd ra rb => some (b, .plain, [rd, ra, rb], some rd)
  | .clz b rd ra | .popc b rd ra | .slli b rd ra _ | .srli b rd ra _ | .srai b rd ra _ | .addi b rd ra _ | .andi b rd ra _
  | .ori b rd ra _ | .xori b rd ra _ | .slti b rd ra _ | .sltiu b rd ra _ => some (b, .plain, [rd, ra], some rd)
  | .lui b rd _ => some (b, .plain, [rd], some rd)
  | .beq b ra rb _ | .bne b ra rb _ | .blt b ra rb _ | .bge b ra rb _ | .bltu b ra rb _ | .bgeu b ra rb _ =>
    some (b, .branch, [ra, rb], none)
  | .j b _ => some (b, .branch, [], none)
  | .jal b _ => some (b, .branch, [31], some 31)
  | _ => none

/-- What such an instruction leaves as it was, from the state `u` in which it issued to the state `t` after it: every other
register, the special registers but for the loop counters and MODE, every other context and bench, and all of memory. -/
structure RegFrame (u t : State) (b : Nat) (rd : Option Reg) : Prop where
  /-- Every general register but the destination. -/
  regs : ∀ r : Reg, rd ≠ some r → (t.cc b).reg r = (u.cc b).reg r
  /-- The registers that an entry saves into, and the others of the context; the loop counters follow the loop-end test. -/
  special : let c := u.cc b; let d := t.cc b
    d.jepc = c.jepc ∧ d.jcause = c.jcause ∧ d.jbadaddr = c.jbadaddr ∧ d.jmode = c.jmode ∧ d.jien = c.jien ∧
    d.jscratch = c.jscratch ∧ d.lstart = c.lstart ∧ d.lend = c.lend ∧ d.status = c.status ∧ d.part = c.part ∧ d.cmd = c.cmd ∧
    d.deadline = c.deadline ∧ (c.le = false → d.lcnt = c.lcnt)
  /-- JSTAT, but for the MODE that a SETMODE before it brings. -/
  jstat : (t.cc b).jstat = match (u.cc b).modeShadow with
    | none => (u.cc b).jstat
    | some m => ((u.cc b).setMode m).jstat
  /-- The other contexts of the bench. -/
  contexts : ∀ n, n ≠ (u.bench b).curN → (t.bench b).ctx n = (u.bench b).ctx n
  /-- Everything else of the bench but the branch predictor and the list of what is in flight. -/
  bench : { t.bench b with ctxs := (u.bench b).ctxs, flight := (u.bench b).flight, pred := (u.bench b).pred } = u.bench b
  /-- The other benches. -/
  benches : ∀ k, k ≠ b → t.bench k = u.bench k
  /-- Everything else of the block. -/
  rest : { t with benches := u.benches } = u
  /-- Every byte of every drawer, instruction drawer and of the host's memory. -/
  memory : ∀ k a, (t.bench k).drawer.get a = (u.bench k).drawer.get a ∧ (t.bench k).idrawer.get a = (u.bench k).idrawer.get a ∧
    t.host.mem.get a = u.host.mem.get a

/-- A shape that SHAPE can give (R159, R160): 1 to 64 rows of 1 to 64 bytes, of whole elements. -/
def Board.legal (d : Board) : Prop :=
  1 ≤ d.rows ∧ d.rows ≤ 64 ∧ 1 ≤ d.rbytes ∧ d.rbytes ≤ 64 ∧ d.rbytes % ewBytes d.ew = 0

/-- A bench whose memories are in their canonical form and whose boards have legal shapes. -/
structure Bench.Ok (v : Bench) : Prop where
  /-- The drawer. -/
  drawer : v.drawer.wf
  /-- The instruction drawer. -/
  idrawer : v.idrawer.wf
  /-- The boards. -/
  boards : ∀ i, (v.board i).legal

/-- The invariants of the block: its benches and the host's memory are in order, and no two partitions hold one bench (R513). -/
structure State.Inv (s : State) : Prop where
  /-- Every bench. -/
  benches : ∀ k, (s.bench k).Ok
  /-- The host's memory. -/
  host : s.host.mem.wf
  /-- The masks of two partitions have no bench in common. -/
  masks : ∀ p q b, p < 8 → q < 8 → p ≠ q → (s.ten p).mask.getLsbD b = true → (s.ten q).mask.getLsbD b = false

/-- What a tile or Marquetry instruction of bench `n` leaves as it was, from the state `s` before it to the state `t` after it:
the general registers, the special registers but for the loop counters, MODE and GLU, every other context and bench, and all of
the block but the board file, the slots and the drawer of the bench, what is in flight there, the counters of its partition, and
reports of corrected words. -/
structure TileFrame (s t : State) (n : Nat) : Prop where
  /-- Every general register. -/
  regs : ∀ r, (t.cc n).reg r = (s.cc n).reg r
  /-- The special registers of the context. -/
  special : let c := s.cc n; let d := t.cc n
    d.jepc = c.jepc ∧ d.jcause = c.jcause ∧ d.jbadaddr = c.jbadaddr ∧ d.jmode = c.jmode ∧ d.jien = c.jien ∧
    d.jscratch = c.jscratch ∧ d.lstart = c.lstart ∧ d.lend = c.lend ∧ d.status = c.status ∧ d.part = c.part ∧ d.cmd = c.cmd ∧
    d.deadline = c.deadline
  /-- The fields of JSTAT but MODE and GLU. -/
  jstat : ∀ i, 2 ≤ i → i ≠ 15 → (t.cc n).jstat.getLsbD i = (s.cc n).jstat.getLsbD i
  /-- The other contexts of the bench. -/
  contexts : ∀ k, k ≠ (s.bench n).curN → (t.bench n).ctx k = (s.bench n).ctx k
  /-- Everything else of the bench. -/
  bench : let v := s.bench n
    { t.bench n with
      ctxs := v.ctxs, flight := v.flight, spec := v.spec, applied := v.applied, boards := v.boards, glue := v.glue, slots := v.slots
      drawer := v.drawer, ecc := v.ecc, scrubQ := v.scrubQ, corrN := v.corrN, corrAt := v.corrAt, issued := v.issued
      switched := v.switched, unseen := v.unseen } = v
  /-- The other benches. -/
  benches : ∀ k, k ≠ n → t.bench k = s.bench k
  /-- Everything else of the block. -/
  rest : { t with benches := s.benches, tens := s.tens, reports := s.reports, free := s.free } = s

end Sys2Proof.Machine
end

