-- ==== Sys2Proof/Certificates/Slice0/Obligations.lean ====
section
/-! DEFINITION. The statements for the provers. -/

open Sys2Proof Sys2Proof.Machine

/-- A step runs the command at the front of the queue; without one a cycle passes (the model's choice, log 1): For every state and
every command at the front of its queue, step is exec of that command on the state whose queue is the rest, and exec answers a
next state for every command and state. On an empty queue step answers a next state: the stroke reference has counted one more
cycle where it runs (power, no reset, no clamp), every column has counted FREQ hundredths of a column cycle where the device
is also out of Rest, flits have moved on the NoC where it carries packets, and everything else is as before. That time passes
on an empty queue is the model's choice (DESIGN CHOICE, log 1). (95_what_each_step_holds.md, R34, R98) -/
def Obligations.StepRunsTheFrontCommand : Prop :=
  (∀ (s : State) (c : Instr) (rest : List Instr), s.pending = c :: rest → step s = exec c { s with pending := rest }) ∧
  (∀ (c : Instr) (s : State), ∃ t, exec c s = .next t) ∧
  (∀ s : State, s.pending = [] → ∃ t, step s = .next t ∧
    t.stroke = (if s.clocked then { s.stroke with cycle := s.stroke.cycle + 1 } else s.stroke) ∧
    (∀ c, c < 16 → t.col c = if s.alive then
      { s.col c with cyc := (s.col c).cyc + ((s.col c).frac + (s.col c).freq) / 100
                     frac := ((s.col c).frac + (s.col c).freq) % 100 } else s.col c) ∧
    (s.noc.req = [] → s.noc.rsp = [] → s.noc.snp = [] → s.noc.dat = [] → t.noc = s.noc) ∧
    { t with stroke := s.stroke, cols := s.cols, noc := s.noc } = s)

/-- The register ALU and immediate instructions write their result and retire: In every context g0 reads 0, a write to it changes
nothing, and a write to another register makes that one read the value and leaves the others. Whenever one of the 27 register
ALU and immediate instructions issues, exec answers the state in which it has written to rd the value that R149 or R150 gives
for its sources and has retired. (R90, R149, R150) -/
def Obligations.AluResults : Prop :=
  ∀ (s : State) (b : Bench7) (rd ra rb : Reg) (n : BitVec 5) (imm : BitVec 16),
    let u := s.atIssue b.toNat false
    let x := (u.cc b.toNat).reg ra
    let y := (u.cc b.toNat).reg rb
    let sx : Word := imm.signExtend 32
    let zx : Word := imm.setWidth 32
    let onto (v : Word) : Out := .next (u.writes b.toNat rd v)
    (∀ (c : Ctx) (w : Word), c.reg 0 = 0 ∧ c.setReg 0 w = c ∧
      ∀ r : Reg, r ≠ 0 → (c.setReg r w).reg r = w ∧ ∀ q, q ≠ r → (c.setReg r w).reg q = c.reg q) ∧
    (s.issues b.toNat .plain [rd, ra, rb] false →
      exec (.add b rd ra rb) s = onto (x + y) ∧ exec (.sub b rd ra rb) s = onto (x - y) ∧
      exec (.and_ b rd ra rb) s = onto (x &&& y) ∧ exec (.andn b rd ra rb) s = onto (x &&& ~~~y) ∧
      exec (.or_ b rd ra rb) s = onto (x ||| y) ∧ exec (.xor b rd ra rb) s = onto (x ^^^ y) ∧
      exec (.sll b rd ra rb) s = onto (x <<< (y.toNat % 32)) ∧ exec (.srl b rd ra rb) s = onto (x >>> (y.toNat % 32)) ∧
      exec (.sra b rd ra rb) s = onto (x.sshiftRight (y.toNat % 32)) ∧
      exec (.slt b rd ra rb) s = onto (if x.toInt < y.toInt then 1 else 0) ∧
      exec (.sltu b rd ra rb) s = onto (if x.toNat < y.toNat then 1 else 0) ∧
      exec (.min b rd ra rb) s = onto (if x.toInt < y.toInt then x else y) ∧
      exec (.max b rd ra rb) s = onto (if x.toInt < y.toInt then y else x) ∧
      exec (.minu b rd ra rb) s = onto (if x.toNat < y.toNat then x else y) ∧
      exec (.maxu b rd ra rb) s = onto (if x.toNat < y.toNat then y else x)) ∧
    (s.issues b.toNat .plain [rd, ra] false →
      (∃ z : Nat, exec (.clz b rd ra) s = onto (BitVec.ofNat 32 z) ∧ z ≤ 32 ∧ x.toNat < 2 ^ (32 - z) ∧ (z < 32 → 2 ^ (31 - z) ≤ x.toNat)) ∧
      exec (.popc b rd ra) s = onto (BitVec.ofNat 32 ((List.range 32).countP fun i => x.getLsbD i)) ∧
      exec (.slli b rd ra n) s = onto (x <<< n.toNat) ∧ exec (.srli b rd ra n) s = onto (x >>> n.toNat) ∧
      exec (.srai b rd ra n) s = onto (x.sshiftRight n.toNat) ∧ exec (.addi b rd ra imm) s = onto (x + sx) ∧
      exec (.andi b rd ra imm) s = onto (x &&& zx) ∧ exec (.ori b rd ra imm) s = onto (x ||| zx) ∧
      exec (.xori b rd ra imm) s = onto (x ^^^ zx) ∧
      exec (.slti b rd ra imm) s = onto (if x.toInt < sx.toInt then 1 else 0) ∧
      exec (.sltiu b rd ra imm) s = onto (if x.toNat < sx.toNat then 1 else 0)) ∧
    (s.issues b.toNat .plain [rd] false → exec (.lui b rd imm) s = onto (zx <<< 16))

/-- What the ALU, immediate, branch, J and JAL instructions leave unchanged: Whenever one of these 35 instructions issues, exec
answers a next state that agrees with the state at issue in every general register but its destination (g31 for JAL, none for
a branch or J), in every special register but the loop counters that the loop-end test lowers, in JSTAT but for the MODE of a
SETMODE before it, in every other context and bench, in the rest of the block and in every byte of memory. The bench keeps
everything but its contexts, its branch predictor and the list of what is in flight. (R149, R150, R152, R153, R103, R101,
R109) -/
def Obligations.RegisterOnlyInstructionsFrame : Prop :=
  ∀ (i : Instr) (s : State) (b : Bench7) (kind : Kind) (uses : List Reg) (rd : Option Reg),
    regOnly i = some (b, kind, uses, rd) → s.issues b.toNat kind uses false →
    ∃ t, exec i s = .next t ∧ RegFrame (s.atIssue b.toNat false) t b.toNat rd

/-- Issuing changes nothing but counts and what older instructions commit: In the state in which the body of an issuing
instruction runs, the running context of its bench, every context, every drawer and instruction drawer, every other bench and
the rest of the block are as they were; of the bench only what is in flight, what older instructions commit (boards, slots,
the applied-pattern register and their check bits), and the reports of a corrected word may differ, and of a partition only
its count of clamped indices and its energy. With nothing in flight, no word with an error and no switch just before, only the
bench's instruction count has grown, by 1. (R107, R143, R212, R246, R368, R591) -/
def Obligations.IssueCountsOnly : Prop :=
  ∀ (s : State) (b : Bench7) (kind : Kind) (uses : List Reg) (retire : Bool), s.issues b.toNat kind uses retire →
    let n := b.toNat
    let v := s.bench n
    let u := s.atIssue n retire
    u.cc n = s.cc n ∧
    (∀ k, (u.bench k).drawer = (s.bench k).drawer ∧ (u.bench k).idrawer = (s.bench k).idrawer ∧ (u.bench k).ctxs = (s.bench k).ctxs) ∧
    { u.bench n with
      flight := v.flight, boards := v.boards, slots := v.slots, applied := v.applied, ecc := v.ecc, scrubQ := v.scrubQ
      corrN := v.corrN, corrAt := v.corrAt, issued := v.issued, switched := v.switched } = v ∧
    (∀ k, k ≠ n → u.bench k = s.bench k) ∧ { u with benches := s.benches, tens := s.tens, reports := s.reports } = s ∧
    (∀ p, { u.ten p with oob := (s.ten p).oob, energyFj := (s.ten p).energyFj } = s.ten p) ∧
    (v.flight = [] → v.ecc = [] → v.switched = false → u = s.modBench n fun v => { v with issued := v.issued + 1 })

/-- The loop-end test, the delay slot and the SETMODE shadow at retire: When an instruction at address a retires after changing
its context by f: (1) with LE = 0, or no level whose end is a with a count that is not 0, the next address is a + 4 and the
counters stay; (2) the lowest level n that ends at a with a count above 1 counts one pass less and the next address is
LSTARTn, every lower level that ends at a having its count set to 0; (3) when every level that ends at a has a count of at
most 1 those counts become 0 and the next address is a + 4; (4) a delay slot sends issue to the address that its branch chose
and is over; (5) a pending SETMODE takes effect. (R109, R103, R101) -/
def Obligations.RetireFollowsTheLoopEndTest : Prop :=
  ∀ (u : State) (b : Nat) (f : Ctx → Ctx),
    let c := f (u.cc b)
    let t := (u.retires b f).cc b
    let lcnt (d : Ctx) (n : Nat) : Word := tget 0 d.lcnt n
    let ends (n : Nat) : Prop := c.le = true ∧ lcnt c n ≠ 0 ∧ tget 0 c.lend n = c.pc
    ((u.cc b).delay = none →
      (∀ n, n < 3 → ends n → 1 < (lcnt c n).toNat → (∀ k, k < n → ends k → (lcnt c k).toNat ≤ 1) →
        t.pc = tget 0 c.lstart n ∧ lcnt t n = lcnt c n - 1 ∧ (∀ k, k < n → ends k → lcnt t k = 0) ∧
          ∀ k, k ≠ n → (n < k ∨ ¬ ends k) → lcnt t k = lcnt c k) ∧
      ((∀ n, n < 3 → ends n → (lcnt c n).toNat ≤ 1) →
        t.pc = c.pc + 4 ∧ (∀ n, n < 3 → ends n → lcnt t n = 0) ∧ ∀ k, (3 ≤ k ∨ ¬ ends k) → lcnt t k = lcnt c k)) ∧
    (∀ d, (u.cc b).delay = some d → t.pc = d.next ∧ t.delay = none) ∧
    (∀ m, (u.cc b).modeShadow = some m → t.mode = m ∧ t.modeShadow = none)

/-- The conditional branches: a delay slot follows, then the path that the condition gives: Whenever BEQ, BNE, BLT, BGE, BLTU or
BGEU issues, exec answers a state in which a delay slot of the branch is pending; the path that the branch takes when it
resolves is the branch address + 4 x sext(OFF16) where its condition holds and the branch address + 8 otherwise, whatever was
predicted; with BPDIS the path predicted is the branch address + 8. (R103, R152, R105) -/
def Obligations.BranchesTakeTheRightPath : Prop :=
  ∀ (s : State) (b : Bench7) (ra rb : Reg) (off : BitVec 16), s.issues b.toNat .branch [ra, rb] false →
    let c := s.cc b.toNat
    let x := c.reg ra
    let y := c.reg rb
    let takes (i : Instr) (cond : Bool) : Prop := ∃ t d, exec i s = .next t ∧ (t.cc b.toNat).delay = some d ∧ d.pc = c.pc ∧
      (if d.right then some d.next else d.other) = some (if cond then c.pc + 4 * off.signExtend 32 else c.pc + 8) ∧
      (c.bpdis = true → d.next = c.pc + 8)
    takes (.beq b ra rb off) (decide (x = y)) ∧ takes (.bne b ra rb off) (decide (x ≠ y)) ∧
    takes (.blt b ra rb off) (decide (x.toInt < y.toInt)) ∧ takes (.bge b ra rb off) (decide (y.toInt ≤ x.toInt)) ∧
    takes (.bltu b ra rb off) (decide (x.toNat < y.toNat)) ∧ takes (.bgeu b ra rb off) (decide (y.toNat ≤ x.toNat))

/-- The jumps: target, link and a misaligned target: Whenever a jump issues: J and JAL leave a pending delay slot that leads to
the jump address + 4 x sext(OFF26), JR and JALR one that leads to ga when it is a multiple of 4; JAL and JALR write g31 with
the jump address + 8, JALR after reading ga. JR and JALR to a target that is not a multiple of 4 raise ALIGN_FAULT with the
target, with no delay slot. (R153, R121) -/
def Obligations.JumpsAndLinks : Prop :=
  ∀ (s : State) (b : Bench7) (ra : Reg) (off : BitVec 26),
    let n := b.toNat
    let u := s.atIssue n false
    let c := s.cc n
    let far := c.pc + 4 * off.signExtend 32
    let slot (t : Word) (link : Bool) (d : Ctx) : Ctx :=
      let d := { d with delay := some { pc := c.pc, next := t, other := none, right := true } }
      if link then d.setReg 31 (c.pc + 8) else d
    (s.issues n .branch [] false → exec (.j b off) s = .next (u.retires n (slot far false))) ∧
    (s.issues n .branch [31] false → exec (.jal b off) s = .next (u.retires n (slot far true))) ∧
    (s.issues n .branch [ra] false → exec (.jr b ra) s = .next
      (if (c.reg ra).toNat % 4 = 0 then u.retires n (slot (c.reg ra) false) else u.raise n 3 (some (c.reg ra)))) ∧
    (s.issues n .branch [ra, 31] false → exec (.jalr b ra) s = .next
      (if (c.reg ra).toNat % 4 = 0 then u.retires n (slot (c.reg ra) true) else u.raise n 3 (some (c.reg ra))))

/-- LOOP and LOOPI write their level, skip an empty body, and refuse a bad level or end: Whenever LOOP or LOOPI issues: with LVL 0
to 2 and an end address (LOOP + 4 x zext(OFF)) not below LSTARTn it retires with LSTARTn the next address, LENDn the end and
LCNTn the count, and with a count of 0 goes on at LENDn + 4; otherwise it raises ILLEGAL. (R108, R155) -/
def Obligations.LoopsSetUpTheirLevel : Prop :=
  ∀ (s : State) (b : Bench7) (lvl : BitVec 2) (rc : Reg) (off16 : BitVec 16) (cnt off12 : BitVec 12),
    let n := b.toNat
    let u := s.atIssue n false
    let c := s.cc n
    let out (stop count : Word) : Out := .next
      (if lvl = 3 ∨ stop.toNat < (c.pc + 4).toNat then u.raise n 1 none
       else u.retires n (fun d =>
         { d with lstart := tset 0 d.lstart lvl.toNat (c.pc + 4), lend := tset 0 d.lend lvl.toNat stop
                  lcnt := tset 0 d.lcnt lvl.toNat count }) (if count = 0 then some (stop + 4) else none))
    (s.issues n .control [rc] false → exec (.loop b lvl rc off16) s = out (c.pc + 4 * off16.setWidth 32) (c.reg rc)) ∧
    (s.issues n .control [] false → exec (.loopi b lvl cnt off12) s = out (c.pc + 4 * off12.setWidth 32) (cnt.setWidth 32))

/-- MFJ reads each control register, and refuses by index and by mode: Whenever MFJ issues: an index outside the table of R91
raises ILLEGAL; one that the table marks PRIVILEGE for the mode raises PRIVILEGE; otherwise it writes gd with the register.
JSTAT reads with PBCNT the length of the patch buffer and TASK the running context, and JSCYC reads the column's count
saturated at 0xFFFF_FFFF. (R91, R92, R93, R98, R134, R156) -/
def Obligations.ControlRegisterReads : Prop :=
  ∀ (s : State) (b : Bench7) (rd : Reg) (idx : BitVec 5),
    let n := b.toNat
    let i := idx.toNat
    let w := [0, 1, 7, 8].contains i || decide (16 ≤ i)
    let u := s.atIssue n w
    let c := u.cc n
    let known := decide (i ≤ 10) || [16, 17, 18, 20, 21, 22, 24, 25, 26].contains i
    let barred := (c.mode = mUser ∧ i ≤ 9 ∧ i ≠ 4) ∨ (c.mode = mSuper ∧ i = 6)
    let reads (v : Word) : Prop := exec (.mfj b rd idx) s = .next (u.writes n rd v)
    s.issues n .plain [rd] w →
    (known = false → exec (.mfj b rd idx) s = .next (u.raise n 1 none)) ∧
    (known = true → barred → exec (.mfj b rd idx) s = .next (u.raise n 2 none)) ∧
    (known = true → ¬ barred →
      (i = 0 → reads (jstatRead c (u.bench n).patch.length (u.bench n).curN)) ∧ (i = 1 → reads c.jepc) ∧ (i = 2 → reads c.jcause) ∧
      (i = 3 → reads c.jbadaddr) ∧ (i = 4 → reads c.jmode) ∧ (i = 5 → reads (u.bench n).jvec) ∧ (i = 6 → reads (u.bench n).jsvec) ∧
      (i = 7 → reads c.jien) ∧ (i = 8 → reads (u.bench n).jipend) ∧ (i = 9 → reads c.jscratch) ∧
      (i = 10 → reads (BitVec.ofNat 32 (min (u.col (colOf n)).cyc 0xFFFFFFFF))) ∧
      (16 ≤ i → i ≤ 18 → reads (tget 0 c.lstart (i - 16))) ∧ (20 ≤ i → i ≤ 22 → reads (tget 0 c.lend (i - 20))) ∧
      (24 ≤ i → reads (tget 0 c.lcnt (i - 24))))

/-- MTJ writes each control register after its own loop-end test, and ignores what is read-only: Whenever MTJ issues on an index
of R91 that the mode may access, exec answers the state after its retire with the write applied: JEPC, JIEN (bits 7:0),
JSCRATCH and the loop registers take the value; JVEC and JSVEC take it with bits 7:0 zero; JIPEND loses the bits written 1;
JMODE takes bits 1:0 outside user mode; JCAUSE, JBADADDR and JSCYC ignore it. In JSTAT bits 12, 11 and 8 to 4 take the value's
bits, PMODE and PMTARGET take theirs unless they are 0b11, or 0b10 from supervisor mode, and every other bit stays. (R91, R92,
R93, R94, R95, R98, R99, R133, R157) -/
def Obligations.ControlRegisterWrites : Prop :=
  ∀ (s : State) (b : Bench7) (ra : Reg) (idx : BitVec 5),
    let n := b.toNat
    let i := idx.toNat
    let w := [0, 1, 7, 8].contains i || decide (16 ≤ i)
    let u := s.atIssue n w
    let c := u.cc n
    let x := c.reg ra
    let r := u.retiresFrom u n
    let known := decide (i ≤ 10) || [16, 17, 18, 20, 21, 22, 24, 25, 26].contains i
    let barred := (c.mode = mUser ∧ i ≤ 9 ∧ i ≠ 4) ∨ (c.mode = mSuper ∧ i = 6)
    let raises (code : Nat) : Prop := exec (.mtj b idx ra) s = .next (u.raise n code none)
    let gives (post : State → State) : Prop := exec (.mtj b idx ra) s = .next (u.retiresFrom u n none post)
    let cc (f : Ctx → Ctx) (t : State) : State := t.modCc n f
    let bench (f : Bench → Bench) (t : State) : State := t.modBench n f
    let keeps (m : BitVec 2) (v : Nat) : Prop := v = 3 ∨ (m = mSuper ∧ v = 2)
    s.issues n .plain [ra] w →
    (known = false → raises 1) ∧ (known = true → barred → raises 2) ∧
    (known = true → ¬ barred →
      (i = 0 → ∃ j : Word, gives (cc fun d => { d with jstat := j }) ∧
        (∀ k, k < 32 → if k ∈ [12, 11, 8, 7, 6, 5, 4] then j.getLsbD k = x.getLsbD k
          else k ∉ [10, 9, 3, 2] → j.getLsbD k = (r.cc n).jstat.getLsbD k) ∧
        (j.extractLsb' 9 2).toNat = (if keeps c.mode (x.extractLsb' 9 2).toNat then (r.cc n).pmtarget.toNat else (x.extractLsb' 9 2).toNat) ∧
        (j.extractLsb' 2 2).toNat = (if keeps c.mode (x.extractLsb' 2 2).toNat then (r.cc n).pmode.toNat else (x.extractLsb' 2 2).toNat)) ∧
      (i = 1 → gives (cc fun d => { d with jepc := x })) ∧
      (i = 2 ∨ i = 3 ∨ i = 10 → gives id) ∧
      (i = 4 → gives (if c.mode = mUser then id else cc fun d => { d with jmode := (d.jmode &&& ~~~3) ||| (x &&& 3) })) ∧
      (i = 5 → gives (bench fun v => { v with jvec := x &&& 0xFFFFFF00 })) ∧
      (i = 6 → gives (bench fun v => { v with jsvec := x &&& 0xFFFFFF00 })) ∧
      (i = 7 → gives (cc fun d => { d with jien := x &&& 0xFF })) ∧
      (i = 8 → gives (bench fun v => { v with jipend := v.jipend &&& ~~~x })) ∧
      (i = 9 → gives (cc fun d => { d with jscratch := x })) ∧
      (16 ≤ i → i ≤ 18 → gives (cc fun d => { d with lstart := tset 0 d.lstart (i - 16) x })) ∧
      (20 ≤ i → i ≤ 22 → gives (cc fun d => { d with lend := tset 0 d.lend (i - 20) x })) ∧
      (24 ≤ i → gives (cc fun d => { d with lcnt := tset 0 d.lcnt (i - 24) x })))

/-- TRAP raises a system call with its immediate in JCAUSE.INFO: Whenever TRAP issues, exec answers a next state in which JCAUSE
has KIND system call (0b10), CODE 0 and INFO the immediate; from user or supervisor mode the program counter is JVEC + 0x80
and the mode supervisor; from secure mode the program counter is JSVEC + 0x80 and the mode stays secure. (R131) -/
def Obligations.TrapEntersTheSystemCall : Prop :=
  ∀ (s : State) (b : Bench7) (imm : BitVec 8), s.issues b.toNat .control [] true →
    let u := s.atIssue b.toNat true
    let c := u.cc b.toNat
    ∃ t, exec (.trap b imm) s = .next t ∧
      let d := t.cc b.toNat
      d.jcause.extractLsb' 8 8 = imm ∧ d.jcause.extractLsb' 4 2 = 2 ∧ d.jcause.extractLsb' 0 4 = 0 ∧
      (c.mode = mUser ∨ c.mode = mSuper → d.pc = (u.bench b.toNat).jvec + 0x80 ∧ d.mode = mSuper) ∧
      (c.mode = mSecure → d.pc = (u.bench b.toNat).jsvec + 0x80 ∧ d.mode = mSecure)

/-- What an exception saves and where it goes: An exception of CODE 1 to 9 of the running task with EXL = 0 (and not CHECKSUM,
which also reports), once every older instruction has committed with no misprediction among them: JEPC is the instruction, or
the branch in its delay slot, whose DS is then 1; JCAUSE has KIND exception, CODE and INFO 0; PMODE, PIE and PLE hold the old
MODE, IE and LE; IE and LE are 0 and EXL 1; secure code goes to JSVEC in secure mode and other code to JVEC in supervisor
mode; JBADADDR takes the address where the cause has one and stays otherwise; a pending SETMODE is saved in PM and PMTARGET;
general registers, loop registers, JSCRATCH, JMODE and JIEN stay, as do the other contexts, the bench's memories, every other
bench and the rest of the block. With nothing in flight nothing has to commit. (R127, R129, R96, R97, R135, R143) -/
def Obligations.ExceptionEntrySavesAndEnters : Prop :=
  ∀ (s : State) (b code : Nat) (bad : Option Word),
    (s.cc b).exl = false → (s.bench b).loading = none → (s.commitAll b).2 = true → (s.bench b).cur.isSome → 1 ≤ code → code ≤ 9 →
    code ≠ exSUM →
    let w := (s.commitAll b).1
    let c := s.cc b
    let t := s.raise b code bad
    let d := t.cc b
    ((s.bench b).flight = [] → w = s) ∧
    d.jepc = (match c.delay with | some l => l.pc | none => c.pc) ∧ d.ds = c.delay.isSome ∧ d.delay = none ∧
    d.jcause.extractLsb' 0 4 = BitVec.ofNat 4 code ∧ d.jcause.extractLsb' 4 2 = 0 ∧ d.jcause.extractLsb' 8 8 = 0 ∧
    d.jcause.getLsbD 16 = (c.deadline && decide (code ≠ exDEADLINE)) ∧
    d.pmode = c.mode ∧ d.pie = c.ie ∧ d.ple = c.le ∧ d.ie = false ∧ d.le = false ∧ d.exl = true ∧
    (if c.mode = mSecure then d.pc = (s.bench b).jsvec ∧ d.mode = mSecure else d.pc = (s.bench b).jvec ∧ d.mode = mSuper) ∧
    d.jbadaddr = bad.getD c.jbadaddr ∧ d.pm = c.modeShadow.isSome ∧ (∀ m, c.modeShadow = some m → d.pmtarget = m) ∧ d.modeShadow = none ∧
    (∀ r, d.reg r = c.reg r) ∧ d.lstart = c.lstart ∧ d.lend = c.lend ∧ d.lcnt = c.lcnt ∧ d.jscratch = c.jscratch ∧
    d.jmode = c.jmode ∧ d.jien = c.jien ∧
    (∀ n, n ≠ (s.bench b).curN → (t.bench b).ctx n = (s.bench b).ctx n) ∧
    { t.bench b with ctxs := (w.bench b).ctxs } = w.bench b ∧ (∀ k, k ≠ b → t.bench k = s.bench k) ∧
    { t with benches := w.benches } = w

/-- When an interrupt is taken, and which: INTERRUPT_ENTRY on a bench whose task runs or stalls, once every older instruction has
committed with no misprediction among them, takes an interrupt exactly when IE = 1, EXL = 0, some source below 8 is set in
both JIPEND and JIEN, and the place lies neither between a branch and its delay slot nor between SETMODE and its shadow
instruction; it then enters with KIND interrupt and the lowest such source in INFO, at the handler offset 0x40, JEPC being the
next instruction, and JIPEND unchanged. Otherwise nothing changes but what has committed; with nothing in flight nothing has
to commit. (R130) -/
def Obligations.InterruptsAreTakenBetweenInstructions : Prop :=
  ∀ (s : State) (b : Bench7), s.canTake b.toNat → (s.bench b.toNat).loading = none → (s.commitAll b.toNat).2 = true →
    let n := b.toNat
    let c := s.cc n
    let v := s.bench n
    let w := (s.commitAll n).1
    let ready (j : Nat) : Prop := j < 8 ∧ v.jipend.getLsbD j = true ∧ c.jien.getLsbD j = true
    let place := c.ie = true ∧ c.exl = false ∧ c.delay = none ∧ c.modeShadow = none
    (v.flight = [] → w = s) ∧
    (∀ j, place → ready j → (∀ k, k < j → ¬ ready k) → ∃ t, exec (.interruptEntry b) s = .next t ∧
      let d := t.cc n
      d.jcause.extractLsb' 4 2 = 1 ∧ d.jcause.extractLsb' 8 8 = BitVec.ofNat 8 j ∧ d.jepc = c.pc ∧ d.exl = true ∧ d.ie = false ∧
      d.pc = (if c.mode = mSecure then v.jsvec else v.jvec) + 0x40 ∧ (t.bench n).jipend = v.jipend) ∧
    ((¬ place ∨ ∀ j, ¬ ready j) → exec (.interruptEntry b) s = .next w)

/-- ERET restores the saved state: Whenever ERET issues: with EXL = 0 it raises ILLEGAL; otherwise in user mode it raises
PRIVILEGE; otherwise the program counter becomes JEPC, MODE, IE and LE become PMODE, PIE and PLE, EXL, DS and PM become 0, and
with PM = 1 the mode change to PMTARGET is pending for one instruction; general registers, JEPC, JCAUSE and JBADADDR stay.
(R128, R97) -/
def Obligations.ReturnFromHandler : Prop :=
  ∀ (s : State) (b : Bench7), s.issues b.toNat .control [] true →
    let n := b.toNat
    let u := s.atIssue n true
    let c := u.cc n
    (c.exl = false → exec (.eret b) s = .next (u.raise n 1 none)) ∧
    (c.exl = true → c.mode = mUser → exec (.eret b) s = .next (u.raise n 2 none)) ∧
    (c.exl = true → c.mode ≠ mUser → ∃ t, exec (.eret b) s = .next t ∧
      let d := t.cc n
      d.pc = c.jepc ∧ d.mode = c.pmode ∧ d.ie = c.pie ∧ d.le = c.ple ∧ d.exl = false ∧ d.ds = false ∧ d.pm = false ∧
      d.modeShadow = (if c.pm then some c.pmtarget else c.modeShadow) ∧
      (∀ r, d.reg r = c.reg r) ∧ d.jepc = c.jepc ∧ d.jcause = c.jcause ∧ d.jbadaddr = c.jbadaddr ∧
      (∀ k, k ≠ n → t.bench k = u.bench k) ∧ { t.bench n with ctxs := (u.bench n).ctxs } = u.bench n ∧ { t with benches := u.benches } = u)

/-- SETMODE, ISYNC, WSTROKE, YIELD and TEND: Whenever the instruction issues: SETMODE to 0b11 raises ILLEGAL, to the same or a
less privileged mode, or from supervisor to secure mode with SEC_EN and secure mode available, retires with the change
pending, and raises PRIVILEGE otherwise. ISYNC retires with the patch buffer written to the instruction drawer in order and
empty. WSTROKE in a throughput partition only retires, and in a real-time one leaves the task WAITING for the boundary. YIELD
with no other READY task, a live glue-up or in a handler only retires, and otherwise leaves the task READY and the next READY
task running. TEND raises ILLEGAL with a live glue-up, PRIVILEGE in user mode, and otherwise leaves the context EMPTY. (R101,
R124, R58, R59, R115, R117, R118) -/
def Obligations.ModeChangesAndWaits : Prop :=
  ∀ (s : State) (b : Bench7) (m : BitVec 2),
    let n := b.toNat
    let u := s.atIssue n true
    let v := u.bench n
    let c := u.cc n
    let w := s.atIssue n false
    let may := m.toNat ≤ (w.cc n).mode.toNat ∨ ((w.cc n).mode = mSuper ∧ m = mSecure ∧ (w.cc n).secEn = true ∧ w.secureOk = true)
    (s.issues n .control [] false →
      exec (.setmode b m) s = .next (if m = 3 then w.raise n 1 none
        else if may then (w.retiresFrom w n).modCc n fun d => { d with modeShadow := some m } else w.raise n 2 none)) ∧
    (s.issues n .control [] true →
      (∃ t, exec (.isync b) s = .next t ∧ (t.bench n).patch = [] ∧
        (t.bench n).idrawer = v.patch.foldl (fun d e => d.setBytes e.1 (leBytes 4 e.2.toNat)) v.idrawer ∧ (t.bench n).drawer = v.drawer) ∧
      (u.isRt n = false → exec (.wstroke b) s = .next (u.retiresFrom u n)) ∧
      (u.isRt n = true → ∃ t, exec (.wstroke b) s = .next t ∧ (t.bench n).ctx v.curN =
        { (u.retiresFrom u n).cc n with status := .waiting, await := .boundary }) ∧
      ((v.nextReady v.curN = none ∨ c.glu = true ∨ c.exl = true) → exec (.yield b) s = .next (u.retiresFrom u n)) ∧
      (∀ k, v.nextReady v.curN = some k → k ≠ v.curN → c.glu = false → c.exl = false → ∃ t, exec (.yield b) s = .next t ∧
        ((t.bench n).ctx v.curN).status = .ready ∧ (t.bench n).cur = some k ∧ ((t.bench n).ctx k).status = .running) ∧
      (c.glu = true → exec (.tend b) s = .next (u.raise n 1 none)) ∧
      (c.glu = false → c.mode = mUser → exec (.tend b) s = .next (u.raise n 2 none)) ∧
      (c.glu = false → c.mode ≠ mUser → ∃ t, exec (.tend b) s = .next t ∧ ((t.bench n).ctx v.curN).status = .empty ∧ (t.bench n).patch = []))

/-- The loads from the bench's own drawer: Whenever LB, LBU, LH, LHU or LW issues at an address of its own drawer that is
permitted (below bank 15, or in secure mode while no wipe runs) and aligned (or JMODE.UROT = 1) and no poisoned or
uncorrectable word lies there, exec answers the state in which the words with corrected errors are reported and rd holds the
value: the aligned little-endian word that contains the address, rotated right by 8 x (address mod 4) bits, of which a byte or
half-word load returns the low 8 or 16 bits, sign- or zero-extended. Where a stream has written a byte of that word and the
core does not see it yet, the load completes too, with some value in rd. (R151, R120, R305, R350, R367, R11) -/
def Obligations.DrawerLoads : Prop :=
  ∀ (s : State) (b : Bench7) (rd ra : Reg) (imm : BitVec 16),
    let n := b.toNat
    let a := (((s.cc n).reg ra) + imm.signExtend 32).toNat
    let u := s.atIssue n false
    let m := (u.bench n).drawer
    let a4 := a / 4 * 4
    let word : Word := m.get (a4 + 3) ++ m.get (a4 + 2) ++ m.get (a4 + 1) ++ m.get a4
    let r := word.rotateRight (8 * (a % 4))
    let errs := (u.bench n).eccIn siteDrawer a4 4
    let w := u.eccReports n errs
    let hidden := ∃ x ∈ (s.bench n).unseen, x.off < a4 + 4 ∧ a4 < x.off + x.n
    let gives (i : Instr) (size : Nat) (v : Word) : Prop := (a % size = 0 ∨ (s.cc n).urot = true) →
      (¬ hidden → exec i s = .next (u.retiresFrom (w.modCc n fun c => c.setReg rd v) n)) ∧
      (hidden → ∃ x, exec i s = .next (u.retiresFrom (({ w with free := w.free + 1 } : State).modCc n fun c => c.setReg rd x) n))
    s.issues n .plain [rd, ra] false → a < 0x200000 → (a + 4 ≤ 0x1E0000 ∨ ((s.cc n).mode = mSecure ∧ s.glb.wipe = none)) → eccBad errs = false →
    gives (.lb b rd ra imm) 1 ((r.setWidth 8).signExtend 32) ∧ gives (.lbu b rd ra imm) 1 ((r.setWidth 8).setWidth 32) ∧
    gives (.lh b rd ra imm) 2 ((r.setWidth 16).signExtend 32) ∧ gives (.lhu b rd ra imm) 2 ((r.setWidth 16).setWidth 32) ∧
    gives (.lw b rd ra imm) 4 r

/-- The stores to the bench's own drawer, with their frame: Whenever SB, SH or SW issues at a permitted and aligned address of its
own drawer, the access does not wait for a wipe, and no uncorrectable word lies under a partial store, exec answers a next
state in which the bytes from that address hold the low bytes of the source register, lowest first, and every other byte of
that drawer, every byte of every other drawer, of every instruction drawer and of host memory, and every general register, are
as they were. (R151, R120, R331, R350, R367, R11) -/
def Obligations.DrawerStores : Prop :=
  ∀ (s : State) (b : Bench7) (rs ra : Reg) (imm : BitVec 16),
    let n := b.toNat
    let a := (((s.cc n).reg ra) + imm.signExtend 32).toNat
    let x := (s.cc n).reg rs
    let u := s.atIssue n true
    let stores (i : Instr) (size : Nat) : Prop := a % size = 0 →
      (size = 4 ∨ ∀ e ∈ (u.bench n).eccIn siteDrawer (a / 4 * 4) 4, e.2 ≠ .double) →
      ∃ t, exec i s = .next t ∧
        (∀ k, (t.bench n).drawer.get k = if a ≤ k ∧ k < a + size then (x >>> (8 * (k - a))).setWidth 8 else (s.bench n).drawer.get k) ∧
        (∀ c, c ≠ n → t.bench c = s.bench c) ∧ (t.bench n).idrawer = (s.bench n).idrawer ∧ t.host = s.host ∧
        (∀ r, (t.cc n).reg r = (s.cc n).reg r)
    s.issues n .plain [rs, ra] true → a < 0x200000 → (a + 4 ≤ 0x1E0000 ∨ ((s.cc n).mode = mSecure ∧ s.glb.wipe = none)) →
    stores (.sb b rs ra imm) 1 ∧ stores (.sh b rs ra imm) 2 ∧ stores (.sw b rs ra imm) 4

/-- Which exception a load or store raises: Whenever a load or store issues, it raises the cause of lowest code that applies, with
its address: PRIVILEGE for bank 15 of a drawer outside secure mode, for a store to the instruction drawer or any access to
stream engine control from user mode; ALIGN_FAULT for an unaligned access (but a drawer load with UROT = 1), for a store to
the instruction drawer that is not a word, and for an access to the mailbox, dowel or stream engine windows that is not a
word; FENCE_FAULT for an address in no region, and for the window of a bench that is unusable or outside the partition's mask;
PATCH_OVERFLOW for the ninth store to the instruction drawer. (R97, R120, R122, R125, R135, R145, R146, R350) -/
def Obligations.ScalarAccessFaults : Prop :=
  ∀ (s : State) (b : Bench7) (rd ra : Reg) (imm : BitVec 16),
    let n := b.toNat
    let a := (((s.cc n).reg ra) + imm.signExtend 32).toNat
    let own := a < 0x200000
    let idr := 0x400000 ≤ a ∧ a < 0x410000
    let word := 0x800000 ≤ a ∧ a < 0x830000
    let sec := 0x820000 ≤ a ∧ a < 0x830000
    let far := 0x10000000 ≤ a ∧ a < 0x20000000
    let tgt := (a - 0x10000000) / 0x200000
    let m := (s.cc n).mode
    let priv (store : Bool) := (own ∧ 0x1E0000 ≤ a ∧ m ≠ mSecure) ∨ (far ∧ 0x1E0000 ≤ (a - 0x10000000) % 0x200000 ∧ m ≠ mSecure) ∨
      (idr ∧ store = true ∧ m = mUser) ∨ (sec ∧ m = mUser)
    let align (store : Bool) (size : Nat) := (a % size ≠ 0 ∧ ¬ (own ∧ store = false ∧ (s.cc n).urot = true)) ∨
      (idr ∧ store = true ∧ size ≠ 4) ∨ (word ∧ size ≠ 4)
    let fence := ¬ own ∧ ¬ idr ∧ ¬ word ∧ (¬ far ∨ s.usable tgt = false ∨ (s.ten (s.actsFor n)).mask.getLsbD tgt = false)
    let full (store : Bool) := idr ∧ store = true ∧ 8 ≤ (s.bench n).patch.length
    let raises (i : Instr) (w : Bool) (code : Nat) : Prop :=
      exec i s = .next ((s.atIssue n w).raise n code (some (BitVec.ofNat 32 a)))
    let ladder (i : Instr) (store w : Bool) (size : Nat) : Prop := s.issues n .plain [rd, ra] w →
      (priv store → raises i w 2) ∧ (¬ priv store → align store size → raises i w 3) ∧
      (¬ priv store → ¬ align store size → fence → raises i w 4) ∧
      (¬ priv store → ¬ align store size → ¬ fence → full store → raises i w 6)
    let w := !decide own
    ladder (.lb b rd ra imm) false w 1 ∧ ladder (.lbu b rd ra imm) false w 1 ∧ ladder (.lh b rd ra imm) false w 2 ∧
    ladder (.lhu b rd ra imm) false w 2 ∧ ladder (.lw b rd ra imm) false w 4 ∧ ladder (.sb b rd ra imm) true true 1 ∧
    ladder (.sh b rd ra imm) true true 2 ∧ ladder (.sw b rd ra imm) true true 4

/-- Accesses to the instruction drawer, the windows and another bench: Whenever a load or store of 1, 2 or 4 bytes issues at a
permitted, aligned address (words only for a store to the instruction drawer, and in the mailbox, dowel and stream engine
windows): a load from the instruction drawer reads its newest value, the patch buffer's where it holds the word; a store there
adds one entry to the patch buffer. A load from the mailbox reads the number of entries or a word of the head entry, and a
store to its fifth word removes the head entry. A load from or a store to a dowel register sends one request to the dowel unit
on REQ and is in flight until its answer; the other words of that window read 0 and ignore stores. A load from stream engine
control reads a rack register or SE_TAGS, and a store writes BASE or word 1 of a rack. A load from another bench's window
sends one request on REQ and is in flight, and a store sends one with its data. A load from or a store to the bench's own
window reaches its own drawer. (R145, R146, R122, R123, R286, R287, R289, R378, R383, R556, R557, R559) -/
def Obligations.WindowAccesses : Prop :=
  ∀ (s : State) (b : Bench7) (rd ra : Reg) (imm : BitVec 16) (size : Nat) (sx : Bool),
    let n := b.toNat
    let a := (((s.cc n).reg ra) + imm.signExtend 32).toNat
    let u := s.atIssue n true
    let v := u.bench n
    let c := u.cc n
    let p := u.actsFor n
    let load : Instr := match size, sx with
      | 1, true => .lb b rd ra imm | 1, false => .lbu b rd ra imm | 2, true => .lh b rd ra imm | 2, false => .lhu b rd ra imm | _, _ => .lw b rd ra imm
    let store : Instr := match size with | 1 => .sb b rd ra imm | 2 => .sh b rd ra imm | _ => .sw b rd ra imm
    let reads (x : Word) : Prop := exec load s = .next (u.writes n rd x)
    let keeps (i : Instr) (t : State) : Prop := exec i s = .next (u.retiresFrom t n)
    let o := a % 0x10000
    let far := (a - 0x10000000) / 0x200000
    let off := (a - 0x10000000) % 0x200000
    let sent (to_ : Endp) (flits : Nat) (body : Body) : State := { u with noc := { u.noc with next := u.noc.next + 1, req := u.noc.req ++ [
      { uid := u.noc.next, src := .bench n, dst := [to_], part := p, secure := decide (c.mode = mSecure), flits := flits, left := flits, due := flits, body := body }] } }
    let waits (r : Nat) (t : State) : State := t.modBench n fun v => { v with
      nextLoad := v.nextLoad + 1, flight := v.flight ++ [{ kind := .load r v.nextLoad, snap := v.snap, started := true }] }
    let asks (i : Instr) (r op : Nat) (x : Word) : Prop := keeps i (waits r (sent .foreman 2 (.dowel op (o / 16) x v.nextLoad)))
    let lane (k : Nat) : Byte := v.idByte (a - 0x400000 + k)
    s.issues n .plain [rd, ra] true → size = 1 ∨ size = 2 ∨ (size = 4 ∧ sx = false) → a % size = 0 →
    (0x400000 ≤ a → a < 0x410000 → v.ecc = [] → reads (extend size sx (leNat ((List.range size).map lane)))) ∧
    (size = 4 → 0x400000 ≤ a → a < 0x410000 → c.mode ≠ mUser → v.patch.length < 8 →
      keeps store (u.modBench n fun v => { v with patch := v.patch ++ [(a - 0x400000, c.reg rd)] })) ∧
    (size = 4 → 0x800000 ≤ a → a < 0x810000 → v.ecc = [] →
      (o = 0 → reads (BitVec.ofNat 32 v.mailbox.length)) ∧
      (∀ e rest, v.mailbox = e :: rest → (o = 4 → reads (BitVec.ofNat 32 (2 ^ 31 + e.bench.toNat * 2 ^ 12 + e.dev.toNat))) ∧
        (o = 8 → reads e.w0) ∧ (o = 12 → reads e.w1) ∧
        (o = 16 → keeps store (u.modBench n fun v => { v with mailbox := rest, mailAt := (v.mailAt + 1) % 16 }))) ∧
      (o ≠ 0 → v.mailbox = [] ∨ 16 ≤ o → reads 0) ∧ (o ≠ 16 → keeps store u) ∧
      (o = 16 → v.mailbox = [] → keeps store (u.modBench n fun v => v))) ∧
    (size = 4 → 0x810000 ≤ a → a < 0x820000 →
      (o < 0x200 → asks load rd.toNat (match o % 16 with | 0 => 3 | 4 => 5 | 8 => 0 | _ => 6) 0) ∧ (0x200 ≤ o → reads 0) ∧
      (o < 0x200 → o % 16 ≠ 0 → asks store 0 (match o % 16 with | 4 => 1 | 8 => 0 | _ => 2) (c.reg rd)) ∧
      (0x200 ≤ o ∨ o % 16 = 0 → keeps store u)) ∧
    (size = 4 → 0x820000 ≤ a → a < 0x830000 → c.mode ≠ mUser →
      (o < 0x80 → reads ((v.rack (o / 32)).word (o % 32 / 4))) ∧
      (o = 0x80 → reads (BitVec.ofNat 32 (v.streams.length * 256 + v.tags.free.length))) ∧ (0x80 < o → reads 0) ∧
      (o < 0x80 → o % 32 = 0 → keeps store (u.modRack n (o / 32) fun r =>
        if r.enable then r else { r with base := (c.reg rd).toNat / 2 ^ 6 % 2 ^ 15 * 64 })) ∧
      (o < 0x80 → o % 32 = 4 → keeps store (u.modRack n (o / 32) fun r => r.write1 (u.rackHeld n (o / 32)) (c.reg rd))) ∧
      (0x80 ≤ o ∨ 8 ≤ o % 32 → keeps store u)) ∧
    (0x10000000 ≤ a → a < 0x20000000 → u.usable far = true → (u.ten p).mask.getLsbD far = true → (off < 0x1E0000 ∨ c.mode = mSecure) →
      (far ≠ n → keeps load (waits rd.toNat (sent (.bench far) 1 (.load off size sx v.nextLoad))) ∧
        keeps store (sent (.bench far) 2 (.store off size (c.reg rd)))) ∧
      (far = n → v.ecc = [] → v.unseen = [] → u.glb.wipe = none →
        reads (extend size sx (leNat ((List.range size).map fun k => v.drawer.get (off + k)))) ∧
        keeps store (u.modBench n fun v => v.writeDrawer off (leBytes size (c.reg rd).toNat))))

/-- SHAPE, RELEASE and ACCZ: Whenever SHAPE, RELEASE of a board, RELEASE of the glue-up or ACCZ issues: a board of another task,
or a marked one outside secure mode, raises PRIVILEGE, as does a marked glue-up for RELEASE and ACCZ; SHAPE with a row that is
no whole number of elements raises SHAPE_FAULT, and ACCZ with type 6 or 7 raises ILLEGAL. Otherwise SHAPE gives the board its
shape and takes it for the task; a released board belongs to no task, zeroed if it was marked and of free values if not, and a
board of no task stays as it is; the glue-up is released the same way, GLU cleared; and ACCZ zeroes the glue-up, fixes its
class, marks it in secure mode and sets GLU. (R158, R160, R164, R191, R193, R194, R196, R197, R198) -/
def Obligations.ShapesReleasesAndZeroing : Prop :=
  ∀ (s : State) (b : Bench7) (bd : Board4) (rows rbytes : BitVec 6) (ew : BitVec 2) (ty : BitVec 3),
    let n := b.toNat
    let m := bd.toNat
    let u := s.atIssue n true
    let v := u.bench n
    let d := v.board m
    let foreign := (∃ o, d.owner = some o ∧ o ≠ v.curN) ∨ (d.secure = true ∧ v.cc.mode ≠ mSecure)
    let marked := v.glue.secure = true ∧ v.cc.mode ≠ mSecure
    let rb := if rbytes = 0 then 64 else rbytes.toNat
    let whole := ew = 3 ∨ rb % 2 ^ ew.toNat = 0
    let done (f : Bench → Bench) : Out := .next (u.retiresFrom (u.modBench n f) n)
    let drawn (f : Bench → Bench) : Out := .next (u.retiresFrom (({ u with free := u.free + 1 } : State).modBench n f) n)
    let raises (code : Nat) : Out := .next (u.raise n code none)
    s.issues n .plain [] true →
    (¬ foreign → whole → exec (.shape b bd rows rbytes ew) s = done fun v => v.setBoard m
      { v.board m with rows := if rows = 0 then 64 else rows.toNat, rbytes := rb, ew := ew, owner := some v.curN }) ∧
    (foreign → exec (.shape b bd rows rbytes ew) s = raises 2) ∧
    (¬ foreign → ¬ whole → exec (.shape b bd rows rbytes ew) s = raises 5) ∧
    (foreign ∨ marked → exec (.releaseBs b bd) s = raises 2) ∧
    (¬ foreign → ¬ marked →
      (d.owner = none → exec (.releaseBs b bd) s = .next (u.retiresFrom u n)) ∧
      (d.owner ≠ none → d.secure = true → exec (.releaseBs b bd) s = done fun v => v.setBoard m { d with data := {}, owner := none, secure := false }) ∧
      (d.owner ≠ none → d.secure = false → exec (.releaseBs b bd) s =
        drawn fun v => v.setBoard m { d with data := { cells := [], undef := some u.free }, owner := none })) ∧
    (marked → exec (.releaseGu b) s = raises 2 ∧ (ty.toNat < 6 → exec (.accz b ty) s = raises 2)) ∧
    (¬ marked →
      (v.cc.glu = false → exec (.releaseGu b) s = .next (u.retiresFrom u n)) ∧
      (v.cc.glu = true → v.glue.secure = true → exec (.releaseGu b) s =
        done fun v => ({ v with glue := {} } : Bench).modCtx v.curN fun c => c.setGlu false) ∧
      (v.cc.glu = true → v.glue.secure = false → exec (.releaseGu b) s = drawn fun v =>
        ({ v with glue := { data := { cells := [], undef := some u.free } } } : Bench).modCtx v.curN fun c => c.setGlu false) ∧
      (ty.toNat < 6 → ∃ ecc, exec (.accz b ty) s = done fun v =>
        { v.modCtx v.curN fun c => c.setGlu true with
          glue := { cls := some (decide (3 ≤ ty.toNat)), secure := decide (v.cc.mode = mSecure) }, ecc := ecc })) ∧
    (6 ≤ ty.toNat → exec (.accz b ty) s = raises 1)

/-- BLD loads a board from the drawer, or its transpose: Whenever BLD issues on a board that the task may name, with addresses
aligned to the element, rows inside the part of the drawer that the mode permits and no wipe to wait for, no poisoned or
uncorrectable words and a transpose engine without a fault, exec answers a next state in which byte k of row r of the board,
as the next instruction reads it, is the byte at ga + r * gb + k of the drawer; with the T flag, for byte, half-word and word
elements with rows x width at most 64, byte j of element c of row r is byte j of element r of the drawer row at ga + c * gb. A
byte that a stream wrote and the core does not see yet is open. The shape stays, outside the shadow of a branch the bytes
outside it stay, the task owns the board, and it is marked in secure mode; what else the instruction leaves is as before.
(R161, R162, R192, R195, R203, R205, R209, R211, R305, R11) -/
def Obligations.BoardLoads : Prop :=
  ∀ (s : State) (b : Bench7) (bd : Board4) (tr : Bool) (ra rb : Reg),
    let n := b.toNat
    let m := bd.toNat
    let w := specWaits b tr (.board m) s
    let u := s.atIssue n w
    let v := u.bench n
    let d := v.boardV m
    let ga := v.cc.reg ra
    let gb := v.cc.reg rb
    let eb := ewBytes d.ew
    let len := if tr then d.rows * eb else d.rbytes
    let cnt := if tr then d.perRow else d.rows
    let row (k : Nat) : Nat := (ga + BitVec.ofNat 32 k * gb).toNat
    let lim := if v.cc.mode = mSecure then 0x200000 else 0x1E0000
    let hidden (a : Nat) : Prop := ∃ x ∈ v.unseen, x.off ≤ a ∧ a < x.off + x.n
    s.issues n .plain [ra, rb] w → boardPriv v m = false → (v.cc.mode = mSecure → s.glb.wipe = none) →
    (tr = true → d.ew ≠ 3 ∧ d.rows * eb ≤ 64 ∧ v.badTranspose = []) → ga.toNat % eb = 0 → gb.toNat % eb = 0 →
    (∀ k, k < cnt → row k < lim ∧ row k + len ≤ lim) →
    (∀ k, k < cnt → eccBad (v.eccIn siteDrawer (row k) len) = false) →
    ∃ t, exec (.bld b bd tr ra rb) s = .next t ∧ TileFrame s t n ∧
      let d' := (t.bench n).boardV m
      d'.rows = d.rows ∧ d'.rbytes = d.rbytes ∧ d'.ew = d.ew ∧ d'.owner = some v.curN ∧
      d'.secure = (d.secure || decide (v.cc.mode = mSecure)) ∧
      (tr = false → ∀ r, r < d.rows → ∀ k, k < d.rbytes → k < 64 → ¬ hidden (row r + k) →
        d'.data.get (64 * r + k) = v.drawer.get (row r + k)) ∧
      (tr = true → ∀ r, r < d.rows → ∀ c, c < d.perRow → ∀ j, j < eb → eb * c + j < 64 → ¬ hidden (row c + eb * r + j) →
        d'.data.get (64 * r + eb * c + j) = v.drawer.get (row c + eb * r + j)) ∧
      (v.inShadow = false → ∀ a, (∀ r, r < d.rows → a < 64 * r ∨ 64 * r + d.rbytes ≤ a) → d'.data.get a = d.data.get a) ∧
      (∀ k, k ≠ m → (t.bench n).boardV k = v.boardV k) ∧ (t.bench n).drawer = v.drawer ∧ (t.bench n).glue = v.glue ∧
      (t.bench n).slots = v.slots

/-- BST stores a board to the drawer, or its transpose, with its frame: Whenever BST issues on a board that belongs to the task
and that it may name, with addresses aligned to the element, rows inside the part of the drawer that the mode permits and no
wipe to wait for, no poisoned or uncorrectable word in the board's shape, no uncorrectable one where it stores, and a
transpose engine without a fault, exec answers a next state in which byte j of row k stored (its address is ga + k * gb + j)
holds byte j of row k of the board, or with the T flag byte j mod w of element k of row j / w for elements of w bytes, unless
a later row also covers that address; every other byte of that drawer, the boards, the glue-up and the pattern slots are as
they were, and so is what else the instruction leaves. (R161, R162, R193, R206, R331, R11) -/
def Obligations.BoardStores : Prop :=
  ∀ (s : State) (b : Bench7) (bs : Board4) (tr : Bool) (ra rb : Reg),
    let n := b.toNat
    let m := bs.toNat
    let u := s.atIssue n true
    let v := u.bench n
    let d := v.board m
    let ga := v.cc.reg ra
    let gb := v.cc.reg rb
    let eb := ewBytes d.ew
    let len := if tr then d.rows * eb else d.rbytes
    let cnt := if tr then d.perRow else d.rows
    let row (k : Nat) : Nat := (ga + BitVec.ofNat 32 k * gb).toNat
    let lim := if v.cc.mode = mSecure then 0x200000 else 0x1E0000
    s.issues n .plain [ra, rb] true → d.owner ≠ none → boardPriv v m = false → (v.cc.mode = mSecure → s.glb.wipe = none) →
    (tr = true → d.ew ≠ 3 ∧ d.rows * eb ≤ 64 ∧ v.badTranspose = []) → ga.toNat % eb = 0 → gb.toNat % eb = 0 →
    (∀ k, k < cnt → row k < lim ∧ row k + len ≤ lim) → eccBad (boardEcc v m) = false →
    (∀ k, k < cnt → ∀ e ∈ v.eccIn siteDrawer (row k) len, e.2 ≠ .double) →
    ∃ t, exec (.bst b bs tr ra rb) s = .next t ∧ TileFrame s t n ∧
      (∀ k, k < cnt → ∀ j, j < len →
        (∀ k', k < k' → k' < cnt → ¬ (row k' ≤ row k + j ∧ row k + j < row k' + len)) →
        (t.bench n).drawer.get (row k + j) =
          if tr then d.data.get (64 * (j / eb) + eb * k + j % eb) else d.data.get (64 * k + j)) ∧
      (∀ a, (∀ k, k < cnt → ¬ (row k ≤ a ∧ a < row k + len)) → (t.bench n).drawer.get a = v.drawer.get a) ∧
      (t.bench n).boards = v.boards ∧ (t.bench n).glue = v.glue ∧ (t.bench n).slots = v.slots

/-- ACC and ACCI add a board into the glue-up: Whenever ACC or ACCI issues with a legal type of the glue-up's class, a live
glue-up, boards of a legal shape that belong to the task and whose element width is the type's, and no poisoned or
uncorrectable word among what it reads, exec answers a next state in which every lane holds what it held with the elements
added that fall on it, widened and added in the class, in ascending row order: ACC adds element e of row r to lane e of row
ROW0 + r, and ACCI to lane e of the row that element r of the index board names, 63 where the index is above 63. The
instruction is in flight with those rows as what it writes and, for ACCI, with the number of such indices, which TEN_OOB_COUNT
counts when it commits. The class stays, the boards and the drawer are as they were, and so is what else the instruction
leaves. (R164, R165, R166, R167, R199, R221, R246, R277) -/
def Obligations.GlueUpSums : Prop :=
  ∀ (s : State) (b : Bench7) (bs bi : Board4) (ty : BitVec 3) (k : AccTy) (row0 : BitVec 6),
    let n := b.toNat
    let u := s.atIssue n true
    let v := u.bench n
    let d := v.board bs.toNat
    let x := v.board bi.toNat
    let el (d : Board) (r e : Nat) : Nat := leNat (d.data.getBytes (64 * r + ewBytes d.ew * e) (ewBytes d.ew))
    let ix (r : Nat) : Nat := el x (r / x.perRow) (r % x.perRow)
    let sum (rows : List Nat) (r e : Nat) : Nat :=
      rows.foldl (fun a i => if e < d.perRow then laneAdd k.isFloat a (k.widen (el d i e)) else a) (v.glue.lane r e)
    let ends (i : Instr) (onto : List Nat) (excess : Nat) : Prop := ∃ t, exec i s = .next t ∧ TileFrame s t n ∧
      (∀ r e, r < 64 → e < 64 → (t.bench n).glue.lane r e = sum ((List.range d.rows).filter fun i => onto.getD i 64 = r) r e) ∧
      (t.bench n).glue.cls = v.glue.cls ∧ (t.bench n).glue.secure = (v.glue.secure || decide (v.cc.mode = mSecure)) ∧
      (∃ o ∈ (t.bench n).flight, o.kind = .unit .portA ∧ o.dest = .glue onto ∧ o.oob = excess) ∧
      (t.bench n).boards = v.boards ∧ (t.bench n).drawer = v.drawer ∧ (t.bench n).slots = v.slots
    s.issues n .plain [] true → glueTy ty = some k → v.cc.glu = true → gluePriv v = false → v.glue.cls = some k.isFloat →
    d.legal → d.owner ≠ none → boardPriv v bs.toNat = false → d.ew ≠ 3 → ewBytes d.ew = k.bytes → eccBad (boardEcc v bs.toNat) = false →
    (let onto := (List.range d.rows).map fun r => row0.toNat + r
     row0.toNat + d.rows ≤ 64 → eccBad (glueEcc v onto) = false → ends (.acc b bs ty row0) onto 0) ∧
    (let onto := (List.range d.rows).map fun r => min (ix r) 63
     x.legal → x.owner ≠ none → boardPriv v bi.toNat = false → x.ew = 0 ∨ x.ew = 1 → d.rows ≤ x.count →
      eccBad (boardEccTo v bi.toNat d.rows) = false → eccBad (glueEcc v onto) = false →
      ends (.acci b bs bi ty) onto ((List.range d.rows).filter fun i => decide (64 ≤ ix i)).length)

/-- DRAIN writes rows of the glue-up to the drawer: Whenever DRAIN issues with a live glue-up that the mode may name, a format of
its class, rows ROW0 to ROW0 + NROWS - 1 inside it (an NROWS of 0 is 64), aligned addresses inside the part of the drawer that
the mode permits, no wipe to wait for, no poisoned or uncorrectable word in those rows, no uncorrectable one where it stores,
and a transpose engine without a fault, exec answers a next state in which element e of row k stored at ga + k * gb holds lane
e of row ROW0 + k converted to the format (4 bytes, or 2 for formats 1 to 3), or with the T flag lane k of row ROW0 + e,
unless a later row also covers the address; every other byte of the drawer, the glue-up, the boards and the slots are as they
were, and so is what else the instruction leaves. (R168, R162, R203, R208, R11) -/
def Obligations.GlueUpDrains : Prop :=
  ∀ (s : State) (b : Bench7) (fmt : BitVec 2) (tr : Bool) (ra rb : Reg) (row0 nrows : BitVec 6),
    let n := b.toNat
    let u := s.atIssue n true
    let v := u.bench n
    let ga := v.cc.reg ra
    let gb := v.cc.reg rb
    let num := if nrows = 0 then 64 else nrows.toNat
    let eb := if fmt = 0 then 4 else 2
    let len := (if tr then num else 64) * eb
    let cnt := if tr then 64 else num
    let row (k : Nat) : Nat := (ga + BitVec.ofNat 32 k * gb).toNat
    let lim := if v.cc.mode = mSecure then 0x200000 else 0x1E0000
    let val (k e : Nat) : Nat := drainEl fmt (if tr then v.glue.lane (row0.toNat + e) k else v.glue.lane (row0.toNat + k) e)
    s.issues n .plain [ra, rb] true → v.cc.glu = true → gluePriv v = false →
    (∃ c, v.glue.cls = some c ∧ (fmt = 1 ∨ fmt = 2 → c = true) ∧ (fmt = 3 → c = false)) → row0.toNat + num ≤ 64 →
    ga.toNat % eb = 0 → gb.toNat % eb = 0 → (tr = true → v.badTranspose = []) → (v.cc.mode = mSecure → s.glb.wipe = none) →
    (∀ k, k < cnt → row k < lim ∧ row k + len ≤ lim) → eccBad (glueEcc v ((List.range num).map fun r => row0.toNat + r)) = false →
    (∀ k, k < cnt → ∀ e ∈ v.eccIn siteDrawer (row k) len, e.2 ≠ .double) →
    ∃ t, exec (.drain b fmt tr ra rb row0 nrows) s = .next t ∧ TileFrame s t n ∧
      (∀ k, k < cnt → ∀ j, j < len →
        (∀ k', k < k' → k' < cnt → ¬ (row k' ≤ row k + j ∧ row k + j < row k' + len)) →
        (t.bench n).drawer.get (row k + j) = BitVec.ofNat 8 (val k (j / eb) / 256 ^ (j % eb))) ∧
      (∀ a, (∀ k, k < cnt → ¬ (row k ≤ a ∧ a < row k + len)) → (t.bench n).drawer.get a = v.drawer.get a) ∧
      (t.bench n).boards = v.boards ∧ (t.bench n).glue = v.glue ∧ (t.bench n).slots = v.slots

/-- PERM, TRN and BTRN move the elements of a board: Whenever PERM, TRN or BTRN issues on boards of legal shapes that the task may
name, the source belonging to it, no word with an uncorrectable error among what it reads and no fault in the unit, exec
answers a next state in which the destination, as the next instruction reads it, holds the elements of the source moved: PERM
routes each group of 256 elements through the settings of the pattern slot (those of the applied-pattern register where that
slot is the one last applied), which become the applied pattern when it starts, at once with nothing else in flight; TRN
exchanges row and column, bytes of an element in order; BTRN transposes the bits of each block of eight rows and one byte. The
destination keeps its shape, belongs to the task and is marked in secure mode; every other board, the drawer, the glue-up and
the slots are as they were, and so is what else the instruction leaves. (R172, R173, R175, R192, R193, R209, R211, R226, R228,
R233) -/
def Obligations.BoardPermutations : Prop :=
  ∀ (s : State) (b : Bench7) (bd bs : Board4) (p : BitVec 4),
    let n := b.toNat
    let w := specWaits b true (.board bd.toNat) s
    let u := s.atIssue n w
    let v := u.bench n
    let d := v.boardV bd.toNat
    let x := v.boardV bs.toNat
    let eb := ewBytes x.ew
    let ends (i : Instr) (tells : Board → Prop) (also : Bench → Prop) : Prop := ∃ t, exec i s = .next t ∧ TileFrame s t n ∧
      let d' := (t.bench n).boardV bd.toNat
      tells d' ∧ d'.rows = d.rows ∧ d'.rbytes = d.rbytes ∧ d'.ew = d.ew ∧ d'.owner = some v.curN ∧
      d'.secure = (d.secure || decide (v.cc.mode = mSecure)) ∧ (v.flight = [] → also (t.bench n)) ∧
      (∀ k, k ≠ bd.toNat → (t.bench n).boardV k = v.boardV k) ∧ (t.bench n).drawer = v.drawer ∧ (t.bench n).glue = v.glue ∧
      (t.bench n).slots = v.slots
    s.issues n .plain [] w → d.legal → x.legal → x.owner ≠ none →
    boardPriv v bd.toNat = false → boardPriv v bs.toNat = false → eccBad (boardEcc v bs.toNat) = false →
    (d.rows = x.rows → d.rbytes = x.rbytes → d.ew = x.ew → x.count % 256 = 0 → slotPriv v p.toNat = false →
      eccBad (permSettings v p.toNat).2 = false → v.badFabric = [] →
      let sl := (permSettings v p.toNat).1
      ends (.perm b bd bs p) (fun d' => ∀ g l, 256 * g + l < x.count → l < 256 →
          d'.elems.getD (256 * g + l) 0 = (routeLanes (sl.img.getBytes 0 240) ((x.elems.drop (256 * g)).take 256)).getD l 0)
        (fun v' => v'.applied = { slot := some p.toNat, img := sl.img, secure := sl.secure })) ∧
    (x.ew ≠ 3 → d.ew = x.ew → d.rows = x.perRow → d.rbytes = x.rows * eb → v.badTranspose = [] →
      ends (.trn b bd bs) (fun d' => ∀ r c j, r < d.rows → c < x.rows → j < eb →
        d'.data.get (64 * r + eb * c + j) = x.data.get (64 * c + eb * r + j)) (fun v' => v'.applied = v.applied)) ∧
    (x.rows % 8 = 0 → d.rows = x.rows → d.rbytes = x.rbytes → d.ew = x.ew → v.badTranspose = [] →
      ends (.btrn b bd bs) (fun d' => ∀ q c i j, 8 * q < x.rows → c < x.rbytes → i < 8 → j < 8 →
        (d'.data.get (64 * (8 * q + j) + c)).getLsbD i = (x.data.get (64 * (8 * q + i) + c)).getLsbD j) (fun v' => v'.applied = v.applied))

/-- KSI, KSR and KTK solve a permutation of the 256 lanes: Whenever KSI, KSR or KTK issues on a board of a legal shape with at
least 256 elements of a width that the instruction takes, that belongs to the task and that it may name, with no uncorrectable
error among the first 256 elements and a solver without a fault, it completes: exec answers a next state in which the slot, as
the next instruction reads it, holds the 240 bytes of settings solved for a list src of 256 lanes that is a permutation. KSI:
src[o] is index o, 255 where it is above 255, unless an earlier lane has it, and the repeated lanes take the unused indices in
ascending order. KSR: the keys of the lanes in src rise, or fall with DIR = 1, equal keys in ascending lane. KTK: the first K
lanes (0 is 256) hold the K greatest keys, or the least with DIR = 1, in their order, and the others follow in ascending lane.
The slot's mark follows the mode; the solve is in flight with its clamped indices, which count when it commits; every other
slot, the boards, the drawer and the glue-up and what else the instruction leaves are as before. (R170, R171, R209, R213,
R221, R230, R232, R234, R246) -/
def Obligations.PatternSolves : Prop :=
  ∀ (s : State) (b : Bench7) (bs : Board4) (p : BitVec 4) (kt : BitVec 2) (dir : Bool) (k : BitVec 8),
    let n := b.toNat
    let w := specWaits b true (.slot p.toNat) s
    let u := s.atIssue n w
    let v := u.bench n
    let d := v.boardV bs.toNat
    let el (o : Nat) : Nat := d.elems.getD o 0
    let key (o : Nat) : Int := keyVal (ewBits d.ew) kt (el o)
    let lane (src : List Nat) (o : Nat) : Nat := src.getD o 0
    let before (desc : Bool) (x y : Nat) : Prop := (if desc then key y < key x else key x < key y) ∨ (key x = key y ∧ x < y)
    let num := if k = 0 then 256 else k.toNat
    let ends (i : Instr) (excess : Nat) (tells : List Nat → Prop) : Prop := ∃ t src, exec i s = .next t ∧ TileFrame s t n ∧
      src.length = 256 ∧ src.Nodup ∧ (∀ x ∈ src, x < 256) ∧ tells src ∧
      ((t.bench n).slotV p.toNat).img.getBytes 0 240 = (solveImage src).take 240 ∧
      ((t.bench n).slotV p.toNat).secure = decide (v.cc.mode = mSecure) ∧
      (∃ o ∈ (t.bench n).flight, o.kind = .unit .solver ∧ o.dest = .slot p.toNat ∧ o.oob = excess) ∧
      (∀ q, q ≠ p.toNat → (t.bench n).slotV q = v.slotV q) ∧ (t.bench n).boards = v.boards ∧ (t.bench n).drawer = v.drawer ∧
      (t.bench n).glue = v.glue
    s.issues n .plain [] w → d.legal → 256 ≤ d.count → d.owner ≠ none →
    boardPriv v bs.toNat = false → eccBad (boardEccTo v bs.toNat 256) = false → v.badSolver = [] →
    (d.ew = 0 ∨ d.ew = 1 → ends (.ksi b p bs) ((List.range 256).filter fun o => decide (256 ≤ el o)).length fun src =>
      let c (o : Nat) := min (el o) 255
      let fresh (o : Nat) := ∀ o', o' < o → c o' ≠ c o
      (∀ o, o < 256 → fresh o → lane src o = c o) ∧
      (∀ o o', o < o' → o' < 256 → ¬ fresh o → ¬ fresh o' → lane src o < lane src o')) ∧
    (d.ew ≠ 3 → kt ≠ 3 →
      ends (.ksr b p bs kt dir) 0 (fun src => ∀ o o', o < o' → o' < 256 → before dir (lane src o) (lane src o')) ∧
      ends (.ktk b p bs kt dir k) 0 (fun src =>
        (∀ o o', o < o' → o < num → o' < 256 → before (!dir) (lane src o) (lane src o')) ∧
        (∀ o o', num ≤ o → o < o' → o' < 256 → lane src o < lane src o')))

/-- PSV saves and PRS restores a pattern slot: Whenever PSV or PRS issues with a 64-byte aligned address whose 256 bytes lie in
the part of the drawer that the mode permits, no wipe to wait for, and no poisoned or uncorrectable word read: PSV (of a slot
that the mode may name, with no uncorrectable word where it stores) answers a next state in which those bytes hold the 240
bytes of the slot and 16 zeros and every other byte of the drawer is as it was; PRS one in which the slot, as the next
instruction reads it, holds the first 240 of those bytes (one that a stream wrote and the core does not see yet being open),
marked in secure mode and not otherwise, and the other slots and the drawer are as they were. Boards and glue-up and what else
the instruction leaves are as before. (R162, R174, R209, R211, R233, R234, R305) -/
def Obligations.SlotImages : Prop :=
  ∀ (s : State) (b : Bench7) (ra : Reg) (p : BitVec 4),
    let n := b.toNat
    let m := p.toNat
    let fits (v : Bench) : Prop := (v.cc.reg ra).toNat % 64 = 0 ∧ (v.cc.mode = mSecure → s.glb.wipe = none) ∧
      (v.cc.reg ra).toNat + 256 ≤ if v.cc.mode = mSecure then 0x200000 else 0x1E0000
    (let v := (s.atIssue n true).bench n
     let ga := (v.cc.reg ra).toNat
     s.issues n .plain [ra] true → fits v → slotPriv v m = false → eccBad (slotEcc v m) = false →
     (∀ e ∈ v.eccIn siteDrawer ga 256, e.2 ≠ .double) →
     ∃ t, exec (.psv b ra p) s = .next t ∧ TileFrame s t n ∧
       (∀ k, k < 240 → (t.bench n).drawer.get (ga + k) = (v.slot m).img.get k) ∧
       (∀ k, 240 ≤ k → k < 256 → (t.bench n).drawer.get (ga + k) = 0) ∧
       (∀ a, a < ga ∨ ga + 256 ≤ a → (t.bench n).drawer.get a = v.drawer.get a) ∧
       (t.bench n).slots = v.slots ∧ (t.bench n).boards = v.boards ∧ (t.bench n).glue = v.glue) ∧
    (let w := specWaits b true (.slot m) s
     let v := (s.atIssue n w).bench n
     let ga := (v.cc.reg ra).toNat
     s.issues n .plain [ra] w → fits v → eccBad (v.eccIn siteDrawer ga 256) = false →
     ∃ t, exec (.prs b p ra) s = .next t ∧ TileFrame s t n ∧
       (∀ k, k < 240 → (∀ x ∈ v.unseen, ga + k < x.off ∨ x.off + x.n ≤ ga + k) →
         ((t.bench n).slotV m).img.get k = v.drawer.get (ga + k)) ∧
       ((t.bench n).slotV m).secure = decide (v.cc.mode = mSecure) ∧ (∀ q, q ≠ m → (t.bench n).slotV q = v.slotV q) ∧
       (t.bench n).drawer = v.drawer ∧ (t.bench n).boards = v.boards ∧ (t.bench n).glue = v.glue)

/-- Naming a board that belongs to no task, or to another: Whenever a tile or Marquetry instruction issues whose source board
belongs to no task, it raises ILLEGAL (BST, KSI, KSR and KTK with a key type 0 to 2, PERM, TRN, BTRN); when the board that it
names belongs to another task, or is marked while the mode is not secure, it raises PRIVILEGE: BLD for its destination, the
others for a source that belongs to a task; whatever the addresses and shapes. (R135, R158, R193, R196) -/
def Obligations.UnownedAndForeignBoards : Prop :=
  ∀ (s : State) (b : Bench7) (bd bs : Board4) (p : BitVec 4) (kt : BitVec 2) (dir tr : Bool) (k : BitVec 8) (ra rb : Reg),
    let n := b.toNat
    let foreign (v : Bench) (m : Nat) := (∃ o, (v.boardV m).owner = some o ∧ o ≠ v.curN) ∨ ((v.boardV m).secure = true ∧ v.cc.mode ≠ mSecure)
    let raises (u : State) (i : Instr) (code : Nat) : Prop := exec i s = .next (u.raise n code none)
    (s.issues n .plain [ra, rb] true →
      let u := s.atIssue n true
      let d := (u.bench n).boardV bs.toNat
      (d.owner = none → raises u (.bst b bs tr ra rb) 1) ∧
      (d.owner ≠ none → foreign (u.bench n) bs.toNat → ∃ bad, exec (.bst b bs tr ra rb) s = .next (u.raise n 2 bad))) ∧
    (let w := specWaits b tr (.board bd.toNat) s
     let u := s.atIssue n w
     s.issues n .plain [ra, rb] w → foreign (u.bench n) bd.toNat → ∃ bad, exec (.bld b bd tr ra rb) s = .next (u.raise n 2 bad)) ∧
    (let w := specWaits b true (.slot p.toNat) s
     let u := s.atIssue n w
     let v := u.bench n
     let all (code : Nat) : Prop := raises u (.ksi b p bs) code ∧ raises u (.ksr b p bs kt dir) code ∧ raises u (.ktk b p bs kt dir k) code
     s.issues n .plain [] w → kt ≠ 3 →
       ((v.boardV bs.toNat).owner = none → all 1) ∧ ((v.boardV bs.toNat).owner ≠ none → foreign v bs.toNat → all 2)) ∧
    (let w := specWaits b true (.board bd.toNat) s
     let u := s.atIssue n w
     let v := u.bench n
     let all (code : Nat) : Prop := raises u (.perm b bd bs p) code ∧ raises u (.trn b bd bs) code ∧ raises u (.btrn b bd bs) code
     s.issues n .plain [] w →
       ((v.boardV bs.toNat).owner = none → all 1) ∧ ((v.boardV bs.toNat).owner ≠ none → foreign v bs.toNat → all 2))

/-- SGO, TWAIT and TTEST: Whenever SGO issues: an address that is not 64-byte aligned raises ALIGN_FAULT and one outside the
drawer FENCE_FAULT, both with JBADADDR; with no tag free it waits in place; otherwise it takes the tag that has been free
longest, starts a stream under it that holds the racks that its first descriptor names (its source rack, and its destination
rack, for a broadcast that of every target), and rd holds the tag. Whenever TWAIT or TTEST issues on a free tag, rd holds the
tag's last status, and with status 0 or 1 the core sees from then on what the stream of that tag has written; on a tag in use
TTEST writes 0xFF and TWAIT makes its task late. (R178, R179, R289, R295, R305, R309) -/
def Obligations.StreamStartsAndTags : Prop :=
  ∀ (s : State) (b : Bench7) (rd ra : Reg),
    let n := b.toNat
    let tag (x : Word) : Nat := x.toNat % 64
    let status (i : Instr) (u : State) (k : Nat) : Prop := exec i s = .next (u.retiresFrom ((u.modBench n fun v => { v with
      unseen := if v.tags.stat k < 2 then v.unseen.filter fun x => !(x.bench = n && x.tag = k) else v.unseen }).modCc n fun c =>
        c.setReg rd (BitVec.ofNat 32 ((u.bench n).tags.stat k))) n)
    (s.issues n .plain [rd, ra] true →
      let u := s.atIssue n true
      let v := u.bench n
      let a := v.cc.reg ra
      let word (o len : Nat) : Nat := leNat (v.drawer.getBytes (a.toNat + o) len)
      let source := if word 0x10 4 / 16 % 2 = 1 then [(false, n, word 0x2C 2 % 4)] else []
      let targets := if word 0x10 4 / 64 % 4 = 2 then (List.range 128).filter fun k => (word 0x30 16).testBit k else [n]
      let destination := if word 0x10 4 / 32 % 2 = 1 then targets.map fun k => (true, k, word 0x2C 2 / 4 % 4) else []
      (a.toNat % 64 ≠ 0 → exec (.sgo b rd ra) s = .next (u.raise n 3 (some a))) ∧
      (a.toNat % 64 = 0 → 0x200000 ≤ a.toNat → exec (.sgo b rd ra) s = .next (u.raise n 4 (some a))) ∧
      (a.toNat % 64 = 0 → a.toNat < 0x200000 → v.tags.free = [] → exec (.sgo b rd ra) s = .next u) ∧
      (a.toNat % 64 = 0 → a.toNat < 0x200000 → ∀ t rest, v.tags.free = t :: rest →
        exec (.sgo b rd ra) s = .next (u.retiresFrom ((({ u with nextSgo := u.nextSgo + 1 } : State).modBench n fun v => { v with
          tags := { v.tags with free := rest, owner := tput t (v.cc.part, v.cc.cmd + 1) v.tags.owner }
          streams := v.streams ++ [{
            id := v.nextStream, born := u.nextSgo, tag := t, nextDesc := a.toNat, part := u.actsFor n, cmd := v.cc.cmd
            secure := decide (v.cc.mode = mSecure), holds := source ++ destination }]
          nextStream := v.nextStream + 1 }).modCc n fun c => c.setReg rd (BitVec.ofNat 32 t)) n)) ∧
      (v.tags.isFree (tag a) = true → status (.twait b rd ra) u (tag a)) ∧
      (v.tags.isFree (tag a) = false → exec (.twait b rd ra) s = .next (u.lateTask n (.tag (tag a))))) ∧
    (s.issues n .plain [rd, ra] false →
      let u := s.atIssue n false
      let k := tag ((u.cc n).reg ra)
      ((u.bench n).tags.isFree k = true → status (.ttest b rd ra) u k) ∧
      ((u.bench n).tags.isFree k = false → exec (.ttest b rd ra) s = .next (u.writes n rd 0xFF)))

/-- RRES, RCMT, RACQ and RREL: Whenever a rack instruction issues on an enabled rack whose producer (RRES, RCMT) or consumer
(RACQ, RREL) is the bench: RRES with a free slot writes the address of slot RES mod count to rd and advances RES, and with
none its task is late; RCMT with a slot reserved advances CMT without poison, and in a throughput partition publishes it; RACQ
with a published slot writes the address of slot ACQ mod count to rd, its bit 0 the poison flag, advances ACQ, and lets the
core see the bytes of that slot, and with none its task is late; RREL with a slot taken advances REL. On a rack that is
disabled or not the bench's, and for RCMT with nothing reserved and RREL with nothing taken, the instruction raises ILLEGAL.
(R291, R292, R293, R305) -/
def Obligations.RackInstructions : Prop :=
  ∀ (s : State) (b : Bench7) (rd : Reg) (rack : BitVec 2),
    let n := b.toNat
    let k := rack.toNat
    let u := s.atIssue n true
    let r := (u.bench n).rack k
    let size := 2 ^ r.sizelog
    let slot (c : Word) : Nat := r.base + c.toNat % size * 2 ^ r.slotlog
    let produces := r.enable = true ∧ r.prod = 0
    let consumes := r.enable = true ∧ r.cons = 0
    let poison := (r.poison.find? fun e => e.1 == r.acq.toNat % size).map (·.2) = some true
    let ill (i : Instr) : Prop := exec i s = .next (u.raise n 1 none)
    (s.issues n .plain [rd] true →
      (¬ produces → ill (.rres b rd rack)) ∧
      (produces → (r.res - r.rel).toNat < size → exec (.rres b rd rack) s = .next (u.retiresFrom
        ((u.modRack n k fun r => { r with res := r.res + 1 }).modCc n fun c => c.setReg rd (BitVec.ofNat 32 (slot r.res))) n)) ∧
      (produces → size ≤ (r.res - r.rel).toNat → exec (.rres b rd rack) s = .next (u.lateTask n (.freeSlot k))) ∧
      (¬ consumes → ill (.racq b rd rack)) ∧
      (consumes → r.pub ≠ r.acq → exec (.racq b rd rack) s = .next (u.retiresFrom
        (((u.modRack n k fun r => { r with acq := r.acq + 1 }).modBench n fun v => v.see (slot r.acq) (2 ^ r.slotlog)).modCc n fun c =>
          c.setReg rd (BitVec.ofNat 32 (slot r.acq + if poison then 1 else 0))) n)) ∧
      (consumes → r.pub = r.acq → exec (.racq b rd rack) s = .next (u.lateTask n (.published k)))) ∧
    (s.issues n .plain [] true →
      (¬ produces ∨ r.cmt = r.res → ill (.rcmt b rack)) ∧
      (produces → r.cmt ≠ r.res → ∃ t, exec (.rcmt b rack) s = .next t ∧
        let r' := (t.bench n).rack k
        r'.cmt = r.cmt + 1 ∧ r'.pub = (if u.isRt n then r.pub else r.cmt + 1) ∧ r'.res = r.res ∧ r'.acq = r.acq ∧ r'.rel = r.rel ∧
        tget false r'.poison (r.cmt.toNat % size) = false ∧ (∀ q, (t.cc n).reg q = (s.cc n).reg q) ∧
        (u.isRt n = false → r.cons = 0 → r.pub ≠ r.cmt + 1 → (t.bench n).jipend.getLsbD (2 + k) = true) ∧
        (∀ q, q ≠ k → (t.bench n).rack q = (s.bench n).rack q) ∧ (t.bench n).drawer = (s.bench n).drawer) ∧
      (¬ consumes ∨ r.rel = r.acq → ill (.rrel b rack)) ∧
      (consumes → r.rel ≠ r.acq → ∃ t, exec (.rrel b rack) s = .next t ∧
        (t.bench n).rack k = { r with rel := r.rel + 1 } ∧ (∀ q, (t.cc n).reg q = (s.cc n).reg q) ∧
        (∀ q, q ≠ k → (t.bench n).rack q = (s.bench n).rack q) ∧ (t.bench n).drawer = (s.bench n).drawer))

/-- MSG PUT, GET, ACCUM and POST: the tag, the checks of the block, and the start: Whenever an MSG instruction issues with its
16-byte block aligned, inside the part of the drawer that the mode permits and without uncorrectable or poisoned words, no
wipe running and a tag free: the tag that has been free longest is taken and rd holds it. The message is the block's four
words; where a stream has written the block and the core does not see it yet, it is some message. A block with bits above 18
of word 0 set or with a reserved bit or a type that its operation does not take is refused with RANGE; with LENGTH 0 the tag
completes with status 0; otherwise a length that is no multiple of 4 is refused with LENGTH, bytes on either side past the
permitted end of a drawer with RANGE, and a POST whose first payload word begins 0xD0E1 with RANGE. A refused message is
logged and completes with status 5; any other starts, a POST as one message to its bench or device. With LENGTH 0 the reserved
bits come first (the model's choice, log 109). (R181, R182, R183, R305, R367, R383, R418, R537) -/
def Obligations.MessageInstructions : Prop :=
  ∀ (s : State) (b : Bench7) (rd ra : Reg),
    let n := b.toNat
    let u := s.atIssue n true
    let v := u.bench n
    let a := (v.cc.reg ra).toNat
    let lim := if v.cc.mode = mSecure then 0x200000 else 0x1E0000
    let errs := v.eccIn siteDrawer a 16
    let hidden := ∃ x ∈ v.unseen, x.off < a + 16 ∧ a < x.off + x.n
    s.issues n .plain [rd, ra] true → a % 16 = 0 → a < lim → eccBad errs = false → s.glb.wipe = none → ∀ t rest, v.tags.free = t :: rest →
    ∃ w : Nat → Nat, (∀ k, w k < 2 ^ 32) ∧ (¬ hidden → ∀ k, k < 4 → w k = leNat (v.drawer.getBytes (a + 4 * k) 4)) ∧
    let r := (u.modBench n fun v => { v with
        tags := { v.tags with free := rest, owner := tput t (v.cc.part, v.cc.cmd + 1) v.tags.owner } }).eccReports n errs
    ∃ q : State, (¬ hidden → q = r.modCc n fun c => c.setReg rd (BitVec.ofNat 32 t)) ∧
    (hidden → q = ({ r with free := r.free + 1 } : State).modCc n fun c => c.setReg rd (BitVec.ofNat 32 t)) ∧
    let tb := w 0 / 2 ^ 12 % 128
    let dev := w 0 % 2 ^ 12
    let len := w 3 % 2 ^ 24
    let ty := w 3 / 2 ^ 24 % 16
    let ends (i : Instr) (t' : State) : Prop := exec i s = .next (u.retiresFrom t' n)
    let runs (i : Instr) (sub : Nat) : Prop := ends i (q.startMsg n t sub a (w 0) (w 1) (w 2) (w 3))
    let refused (i : Instr) (code : Nat) : Prop := ends i ((q.log (srcBench n) 0x11 (q.actsFor n) (BitVec.ofNat 32 code)
      (BitVec.ofNat 32 a) (BitVec.ofNat 32 t)).completeTag n t 5 false)
    let put := Instr.msgPut b rd ra
    let get := Instr.msgGet b rd ra
    let acc := Instr.msgAccum b rd ra
    let pst := Instr.msgPost b rd ra
    let known := w 0 < 2 ^ 19
    let plain := w 3 < 2 ^ 24
    let typed := w 3 < 2 ^ 28 ∧ ty < 6
    let fits := w 1 + len ≤ lim ∧ w 2 + len ≤ lim
    let note := w 2 / 2 ^ 16 = 0xD0E1
    (¬ known → refused put 3 ∧ refused get 3 ∧ refused acc 3 ∧ refused pst 3) ∧
    (known → ¬ plain → refused put 3 ∧ refused get 3) ∧ (known → ¬ typed → refused acc 3) ∧
    (known → len = 0 → (plain → ends put (q.completeTag n t 0 false) ∧ ends get (q.completeTag n t 0 false)) ∧
      (typed → ends acc (q.completeTag n t 0 false))) ∧
    (known → len % 4 ≠ 0 → (plain → refused put 2 ∧ refused get 2) ∧ (typed → refused acc 2)) ∧
    (known → len ≠ 0 → len % 4 = 0 → ¬ fits → (plain → refused put 3 ∧ refused get 3) ∧ (typed → refused acc 3)) ∧
    (known → len ≠ 0 → len % 4 = 0 → fits → (plain → runs put 0 ∧ runs get 1) ∧ (typed → runs acc 2)) ∧
    (known → note → refused pst 3) ∧
    (known → ¬ note → ends pst (q.startXfer n
      { tag := t, order := (q.bench n).nextXfer, born := q.now, dev := dev, addr := a, part := q.actsFor n, cmd := (q.cc n).cmd
        secure := decide ((q.cc n).mode = mSecure), msg := some (.post (BitVec.ofNat 32 (w 2)) (BitVec.ofNat 32 (w 3))), stage := .writing
        writes := [{ place := if dev = q.dev.id.toNat then .drawer tb 0 else .remote dev tb 0, n := 0, data := some [] }] }))

/-- DADD, DSETT, DWAIT, DRD and DCLR leave for their dowel: Whenever a DOW instruction issues on a dowel of the device, one
request with its operation, the dowel index mod 32 and rb for DADD and DSETT goes to the dowel unit on REQ with the partition
and security of the task, and the instruction is in flight until the answer, holding rd for DADD and DRD and no register
otherwise. On a dowel of another device, with a tag free, it takes the tag that has been free longest, rd holds the tag, and
the operation leaves under it; DRD of such a dowel, and any dowel number above the device identifiers, completes the tag with
status 5 and is logged with RANGE; with no tag free it waits in place. (R184, R378, R383, R555, R556, R576) -/
def Obligations.DowelInstructions : Prop :=
  ∀ (s : State) (b : Bench7) (rd ra rb : Reg),
    let n := b.toNat
    let u := s.atIssue n true
    let v := u.bench n
    let a := (v.cc.reg ra).toNat
    let x := v.cc.reg rb
    let p := u.actsFor n
    let here := a < 2 ^ 17 ∧ a / 32 = u.dev.id.toNat
    let keeps (j : Instr) (t : State) : Prop := exec j s = .next (u.retiresFrom t n)
    let gives (j : Instr) (t : State) (y : Word) : Prop := keeps j (t.modCc n fun c => c.setReg rd y)
    let asks (j : Instr) (r op : Nat) (y : Word) : Prop := keeps j (({ u with noc := { u.noc with next := u.noc.next + 1, req := u.noc.req ++ [
        { uid := u.noc.next, src := .bench n, dst := [.foreman], part := p, secure := decide (v.cc.mode = mSecure), flits := 2, left := 2, due := 2
          body := .dowel op (a % 32) y v.nextLoad }] } } : State).modBench n fun v => { v with
      nextLoad := v.nextLoad + 1, flight := v.flight ++ [{ kind := .load r v.nextLoad, snap := v.snap, started := true }] })
    (s.issues n .plain [rd, ra, rb] true →
      (here → asks (.dadd b rd ra rb) rd.toNat 0 x ∧ asks (.dsett b rd ra rb) 0 1 x) ∧
      (¬ here → v.tags.free = [] → exec (.dadd b rd ra rb) s = .next u ∧ exec (.dsett b rd ra rb) s = .next u)) ∧
    (s.issues n .plain [rd, ra] true →
      (here → asks (.dwait b rd ra) 0 2 0 ∧ asks (.drd b rd ra) rd.toNat 3 0 ∧ asks (.dclr b rd ra) 0 4 0) ∧
      (¬ here → v.tags.free = [] → exec (.dwait b rd ra) s = .next u ∧ exec (.drd b rd ra) s = .next u ∧ exec (.dclr b rd ra) s = .next u)) ∧
    (∀ t rest, ¬ here → v.tags.free = t :: rest →
      let q := u.modBench n fun v => { v with
        tags := { v.tags with free := rest, owner := tput t (v.cc.part, v.cc.cmd + 1) v.tags.owner } }
      let refused := (q.log (srcBench n) 0x11 (q.actsFor n) 3 0 (BitVec.ofNat 32 t)).completeTag n t 5 false
      let far (j : Instr) (op : Nat) (y : Word) : Prop := (2 ^ 17 ≤ a → gives j refused (BitVec.ofNat 32 t)) ∧
        (a < 2 ^ 17 → gives j (q.startXfer n
          { tag := t, order := v.nextXfer, msg := some (.dowel op (a % 32) y), dev := a / 32, part := p, cmd := v.cc.cmd, stage := .writing
            writes := [{ place := .remote (a / 32) 0 0, n := 0, data := some [] }] }) (BitVec.ofNat 32 t))
      (s.issues n .plain [rd, ra, rb] true → far (.dadd b rd ra rb) 0 x ∧ far (.dsett b rd ra rb) 1 x) ∧
      (s.issues n .plain [rd, ra] true → far (.dwait b rd ra) 2 0 ∧ far (.dclr b rd ra) 4 0 ∧
        gives (.drd b rd ra) refused (BitVec.ofNat 32 t)))

/-- A dowel that reaches its target notifies its waiters once: After DADD, DSETT or DWAIT on a dowel, with the count, the target
and the waits as the operation leaves them: when the count less the target, modulo 2^32 and read as a signed value, is 0 or
more, the wait list and the remote-wait records of the dowel are empty, and count and target stay; otherwise the dowel and its
records are just as the operation leaves them. No other dowel changes. Where no remote-wait record names the dowel, or no port
has an ORIGIN slot's last flit waiting, a reached dowel sets JIPEND.DOWEL of every registered bench and no bench changes
otherwise. The operations answer the dowel unit's requests: DADD, DRD and a load of the count the old count, a load of the
target the target, a load of the state 1 when the dowel is reached and 0 otherwise; DCLR clears the count, the waits and the
records and tells no bench. (R553) -/
def Obligations.DowelsNotifyWhenReached : Prop :=
  ∀ (s : State) (p i b : Nat) (x : Word), b < 128 →
    let d := s.dowel (dowelNo p i)
    let quiet := (∀ r ∈ (s.ten p).remote, r.2.2 ≠ i) ∨ ∀ q, (s.port q).freed = [] ∧ ∀ f ∈ (s.port q).queue, f.frees = none
    let hit (e : Dowel) := 0 ≤ (e.count - e.target).toInt
    let tells (t : State) (e : Dowel) : Prop :=
      t.dowel (dowelNo p i) = (if hit e then { e with waits := 0 } else e) ∧
      (hit e → ∀ r ∈ (t.ten p).remote, r.2.2 ≠ i) ∧ (¬ hit e → (t.ten p).remote = (s.ten p).remote) ∧
      (∀ k, k ≠ dowelNo p i → t.dowel k = s.dowel k) ∧
      (quiet →
        (hit e → ∀ k, k < 128 → e.waits.getLsbD k = true → (t.bench k).jipend = (s.bench k).jipend ||| 2) ∧
        (∀ k, (¬ hit e ∨ ¬ (k < 128 ∧ e.waits.getLsbD k = true)) → t.bench k = s.bench k) ∧
        ∀ k, { t.bench k with jipend := (s.bench k).jipend } = s.bench k)
    tells (s.dowelAdd p i x) { d with count := d.count + x } ∧ tells (s.dowelTarget p i x) { d with target := x } ∧
    tells (s.dowelWait p i b) { d with waits := d.waits ||| BitVec.ofNat 128 (2 ^ b) } ∧
    s.dowelOp p 0 i x b = (s.dowelAdd p i x, d.count) ∧ s.dowelOp p 3 i x b = (s, d.count) ∧ s.dowelOp p 5 i x b = (s, d.target) ∧
    s.dowelOp p 6 i x b = (s, if hit d then 1 else 0) ∧
    let t := (s.dowelOp p 4 i x b).1
    t.dowel (dowelNo p i) = { d with count := 0, waits := 0 } ∧ (∀ r ∈ (t.ten p).remote, r.2.2 ≠ i) ∧ (∀ k, t.bench k = s.bench k) ∧
    ∀ k, k ≠ dowelNo p i → t.dowel k = s.dowel k

/-- The events of a bench's Jig core and Marquetry unit: Where the event is due: DEADLINE_PENDING raises DEADLINE. BRANCH_RESOLVE
of the oldest branch, predicted wrong, restores the core to the point after its delay slot on the right path, with the status,
a pending DEADLINE and its mark in JCAUSE as they are now, and discards everything younger; predicted right and oldest of all,
it leaves the flight, and a completed operation behind it commits: a buffered board reaches the board file. MARQUETRY_COMPLETE
completes the oldest operation of its unit: alone it leaves the flight, and behind an older instruction it waits to commit in
program order. DRAIN_END takes DEADLINE at the oldest instruction that had not committed, or at the task's own place, with
what the abandoned operations were writing undefined. LOCKSTEP_MISMATCH retires the bench for its second mismatch within 2^20
strokes; a first one stops the running task; either way LOCKSTEP is the cause in the context that ran. (R59, R77, R107, R129,
R135, R136, R143, R175, R186, R212, R213, R636) -/
def Obligations.BenchEvents : Prop :=
  ∀ (s : State) (b : Bench7) (m : MUnit) (stream : Bool),
    let n := b.toNat
    let v := s.bench n
    let c := v.cc
    let flies (l : List Op) : State := s.modBench n fun v => { v with flight := l }
    (s.canRun n = true → c.deadline = true → c.exl = false → exec (.deadlinePending b) s = .next (s.raise n 8 none)) ∧
    (s.alive = true → ∀ pre o post, v.flight = pre ++ o :: post → (∀ x ∈ pre, ∀ r, x.kind ≠ .branch r) →
      (o.kind = .branch false → exec (.branchResolve b) s = .next (s.modBench n fun v =>
        { v.modCtx v.curN fun c => { o.snap.ctx with
            status := c.status, await := c.await, deadline := c.deadline, jcause := o.snap.ctx.jcause ||| (c.jcause &&& 0x10000) } with
          jvec := o.snap.jvec, jsvec := o.snap.jsvec, flight := pre })) ∧
      (o.kind = .branch true → pre = [] → (∀ x ∈ post.head?, x.done = false) → exec (.branchResolve b) s = .next (flies post)) ∧
      (o.kind = .branch true → pre = [] → v.ecc = [] → ∀ x bd k, post = [x] → x.started = true → x.done = true → (∃ a, x.kind = .unit a) →
        x.dest = .board bd → x.buf = some k → ∃ t, exec (.branchResolve b) s = .next t ∧ (t.bench n).flight = [] ∧ (t.bench n).ctxs = v.ctxs ∧
          (∀ r j, r < (v.board bd).rows → j < (v.board bd).rbytes →
            ((t.bench n).board bd).data.get (64 * r + j) = (v.buf k).data.get (64 * r + j)) ∧
          ((t.bench n).board bd).owner = some v.curN ∧ ((t.bench n).board bd).secure = ((v.board bd).secure || (v.buf k).secure) ∧
          (∀ q, q ≠ bd → (t.bench n).board q = v.board q) ∧
          (t.ten (s.actsFor n)).oob = (if x.oob = 0 then (s.ten (s.actsFor n)).oob else satAdd (s.ten (s.actsFor n)).oob x.oob))) ∧
    (s.alive = true → ∀ pre o post, v.flight = pre ++ o :: post → o.kind = .unit m → o.done = false →
      (∀ x ∈ pre, ¬ (x.kind = .unit m ∧ x.done = false)) → (∀ x ∈ v.flight, x.started = true) →
      (pre = [] → post = [] → o.buf = none → o.oob = 0 → exec (.marquetryComplete b m) s = .next (flies [])) ∧
      ((∃ x ∈ pre.head?, x.done = false) → exec (.marquetryComplete b m) s = .next (flies (pre ++ { o with done := true } :: post)))) ∧
    (s.alive = true → v.draining = true → v.cur.isSome = true → c.deadline = true →
      let at_ := match v.flight.head? with | some o => c.rewound o.snap.ctx | none => c
      at_.exl = false → ∃ t, exec (.drainEnd b) s = .next t ∧ (t.bench n).draining = false ∧ (t.bench n).flight = [] ∧
        (t.cc n).jepc = (match at_.delay with | some d => d.pc | none => at_.pc) ∧ (t.cc n).jcause = 8 ∧ (t.cc n).deadline = false ∧
        (t.cc n).exl = true ∧ (t.cc n).status = .running ∧ (∀ r, (t.cc n).reg r = at_.reg r) ∧
        ∀ o ∈ v.flight, o.done = false → o.buf = none → ∀ bd, o.dest = .board bd → ((t.bench n).board bd).data.undef.isSome = true) ∧
    (s.alive = true → s.usable n = true → ∀ k, v.cur = some k →
      let again := ∃ a, v.lockAt = some a ∧ s.now < a + 2 ^ 20
      ∃ t, exec (.lockstepMismatch b stream) s = .next t ∧ ((t.bench n).ctx k).jcause = 9 ∧
        (again → t = (((s.log (srcBench n) 0x82 c.part (BitVec.ofNat 32 n) c.pc (if stream then 1 else 0)).modBench n fun v =>
          { v with lockAt := some s.now }).retire n 2).modBench n fun v => v.modCtx k fun c => { c with jcause := 9 }) ∧
        (¬ again → ((t.bench n).ctx k).status = .empty ∧ (t.bench n).lockAt = some s.now ∧ t.usable n = true))

/-- A window access or a dowel request reaches its endpoint, and its answer its register: NOC_REQUEST for a packet behind an older
one of its way or behind a flit that goes before it changes nothing; with no older packet of its source, network and
destination and empty buffers, a packet can always reach its endpoint. One that can leaves the mesh and is served: where the
target admits the access (usable, in the partition's mask, below bank 15 or in secure mode, no dead link on the way) and no
word is in error, a store writes its bytes, a load is answered with the value it reads, and a dowel request with the dowel
unit's answer after its effect; a refused store writes nothing and a refused load is answered with a free value. NOC_RESPONSE
writes a word to the register that awaits it, and its instruction commits. Transfers of every bench then go on. A link named
as faulty for the first time gets its spare wire and is logged. (R146, R377, R378, R383, R390, R391, R393, R399, R400, R556,
R634) -/
def Obligations.ScalarAccessesOnTheNoc : Prop :=
  ∀ (s : State) (k : Nat), s.alive = true →
    (∀ p, s.noc.req[k]? = some p → (∀ q ∈ s.noc.req.take k, q.sameWay p = false) → s.noc.buf = [] → s.noc.hold = [] →
      s.noc.canReach .req k = true) ∧
    (s.noc.canReach .req k = false → exec (.nocRequest k none) s = .next s) ∧
    (∀ p, s.noc.req[k]? = some p → s.noc.canReach .req k = true → s.reqHeld p = false →
      let r : State := { s with noc := s.noc.reached .req p }
      let answer (t : State) (at_ : Endp) (id : Nat) (x : Word) : State := { t with noc := { t.noc with
        next := t.noc.next + 1, rsp := t.noc.rsp ++ [{ uid := t.noc.next, src := at_, dst := [p.src], part := p.part, secure := p.secure, body := .word id x }] } }
      let ends (t : State) : Prop := exec (.nocRequest k none) s = .next t.advanceAll
      let admits (j off size : Nat) := s.usable j = true ∧ (s.ten p.part).mask.getLsbD j = true ∧ (off + size ≤ 0x1E0000 ∨ p.secure = true) ∧
        s.noc.cut .req p = false
      (∀ j off size x, 0 < size → p.dst = [.bench j] → p.body = .store off size x →
        (admits j off size → (s.bench j).ecc = [] → ends (r.modBench j fun v => (v.writeDrawer off (leBytes size x.toNat)).see off size)) ∧
        (¬ admits j off size → ends r)) ∧
      (∀ j off size sx id, 0 < size → p.dst = [.bench j] → p.body = .load off size sx id →
        (admits j off size → (s.bench j).ecc = [] →
          ends (answer r (.bench j) id (extend size sx (leNat ((s.bench j).drawer.getBytes off size))))) ∧
        (¬ admits j off size → ends (answer { r with free := r.free + 1 } (.bench j) id (Config.freeWord s.free)))) ∧
      (∀ op i x id from_, p.src = .bench from_ → p.dst = [.foreman] → p.body = .dowel op i x id → s.noc.cut .req p = false →
        ends (answer (r.dowelOp p.part op i x from_).1 .foreman id (r.dowelOp p.part op i x from_).2))) ∧
    (∀ p j id x reg, s.noc.rsp[k]? = some p → s.noc.canReach .rsp k = true → p.dst = [.bench j] → p.body = .word id x →
      ∀ o, (s.bench j).flight = [o] → o.kind = .load reg id →
        exec (.nocResponse k) s = .next ((({ s with noc := s.noc.reached .rsp p } : State).modBench j fun v =>
          { v.modCtx v.curN fun c => c.setReg (BitVec.ofNat 5 reg) x with flight := [] }).advanceAll)) ∧
    (s.noc.req[k]? = none → ∀ l, l ∉ s.noc.dead → l ∉ s.noc.spares →
      ∃ i0 i1 i2, exec (.nocRequest k (some l)) s =
        .next (({ s with noc := { s.noc with spares := s.noc.spares ++ [l] } } : State).logAll srcForeman 0x84 i0 i1 i2))

/-- Reads, writes, grants and data between benches; retries; AGE; port retries: A packet that can reach its endpoint leaves its
mesh. At a bench that admits the run and has no words in error, a read is answered with its data on DAT and its end on RSP,
and a write reserves a landing and is granted it; refused, the end goes back alone. A grant that reaches the writer sends its
data; data that land with a good CRC in a landing reserved for their partition free it, write the run and send the end, and
without one are tried again; data of a read reach their run, and an end ends its run. With a bad CRC, or when NOC_WATCHDOG
finds a run silent, a granted write sends its data again, up to three times; after that its run ends with status 4 and the NoC
bit of GLB_FAULT_SUMMARY is set. AGE_INCREMENT raises the AGE of a waiting packet of any mesh, up to 15. PORT_RETRY of a write
puts its bytes in the drawer, changes no other byte of it, and charges port B's cycle to the class; a read changes nothing
else. (R57, R331, R333, R383, R384, R389, R399, R400, R402, R403) -/
def Obligations.DataTransfersOnTheNoc : Prop :=
  ∀ (s : State) (k : Nat) (b : Bench7) (tag : BitVec 6) (cls : SplitClass) (portB : Bool) (addr : BitVec 21) (data : List Byte) (mesh : NocMesh),
    s.alive = true →
    let n := b.toNat
    let v := s.bench n
    let gone (m : NocMesh) (p : Pkt) : State := { s with noc := s.noc.reached m p }
    let again (r : State) (o : Ask) (x : Xfer) (w : Run) (e : Endp) : State :=
      if w.tries < 3 then (({ r with noc := { r.noc with told := r.noc.told + 1 } } : State).modRun o fun w => { w with tries := w.tries + 1 }).inject .dat
        o.who [e] (match e with | .hpp _ => 1 | _ => 2) x.part x.sec (.wdata { o with tries := o.tries + 1 }) ((w.n + 63) / 64)
      else (({ r with noc := { r.noc with told := r.noc.told + 1 } } : State).report { source := srcForeman, kind := .bare, fault := 0x20 }).endAsk o 4
    (∀ p j o off x w, s.noc.req[k]? = some p → s.noc.canReach .req k = true → s.reqHeld p = false → p.dst = [.bench j] → s.noc.cut .req p = false →
      s.askRun o = some (n, x, w) → w.place = .drawer j off →
      let ok := s.usable j = true ∧ (s.ten p.part).mask.getLsbD j = true ∧ (w.n = 0 ∨ off + w.n ≤ 0x1E0000 ∨ p.secure = true)
      let r := gone .req p
      (ok → p.body = .read o → (s.bench j).ecc = [] → exec (.nocRequest k none) s = .next
        (((r.inject .dat (.bench j) [o.who] 2 p.part p.secure (.data o ((s.bench j).drawer.getBytes off w.n) false)).inject .rsp (.bench j) [o.who] 0
          p.part p.secure (.done o 0)).advanceAll)) ∧
      (ok → p.body = .write o → (∀ l ∈ s.noc.landings, l.1 ≠ .bench j) → exec (.nocRequest k none) s = .next
        ((({ r with noc := { r.noc with landings := r.noc.landings ++ [(.bench j, { o with tries := 0 }, p.part)] } } : State).inject .rsp
          (.bench j) [o.who] 0 p.part p.secure (.grant o)).advanceAll)) ∧
      (¬ ok → p.body = .read o ∨ p.body = .write o → ∃ st, 2 ≤ st ∧ exec (.nocRequest k none) s = .next
        ((r.inject .rsp (.bench j) [o.who] 0 p.part p.secure (.done o st)).advanceAll))) ∧
    (∀ p o x w, s.noc.rsp[k]? = some p → s.noc.canReach .rsp k = true → p.dst = [.bench n] → o.who = .bench n → s.askRun o = some (n, x, w) →
      (p.body = .grant o → exec (.nocResponse k) s = .next ((((gone .rsp p).modRun o fun w => { w with told := true }).inject .dat (.bench n) [p.src]
        (match p.src with | .hpp _ => 1 | _ => 2) p.part p.secure (.wdata o) ((w.n + 63) / 64)).advanceAll)) ∧
      (∀ st, p.body = .done o st → exec (.nocResponse k) s = .next (((gone .rsp p).endAsk o st).advanceAll))) ∧
    (∀ p o x w, s.noc.dat[k]? = some p → s.noc.canReach .dat k = true → s.noc.cut .dat p = false → o.who = .bench n → s.askRun o = some (n, x, w) →
      let r := gone .dat p
      (∀ j off, p.dst = [.bench j] → p.body = .wdata o → w.place = .drawer j off → s.usable j = true → (s.bench j).ecc = [] → w.poison = false →
        (.bench j, { o with tries := 0 }, p.part) ∈ s.noc.landings → exec (.nocData k true none) s = .next
          (((({ r with noc := { r.noc with landings := r.noc.landings.filter fun l => !(l.1 = .bench j && l.2.1 = { o with tries := 0 }) } } : State).landWrite
            n j off x w).inject .rsp (.bench j) [o.who] 0 p.part p.secure (.done o 0)).advanceAll)) ∧
      (∀ d po, p.dst = [.bench n] → p.body = .data o d po → x.part = p.part →
        exec (.nocData k true none) s = .next (((gone .dat p).landData o d po).advanceAll)) ∧
      (∀ e, p.body = .wdata o → o.write = true → x.mcast = false → w.told = true → s.serverOf n w = some e → s.veneer.looks = [] →
        (∀ m, ∀ q ∈ r.noc.of m, q.body.ask ≠ some o) → exec (.nocData k false none) s = .next (again r o x w e).advanceAll)) ∧
    (∀ x i w e, v.xfer? tag.toNat = some x → x.silent = some (true, i) → x.writes[i]? = some w → x.mcast = false → w.told = true →
      s.serverOf n w = some e → s.veneer.looks = [] → let o : Ask := { who := .bench n, tag := tag.toNat, write := true, run := i, tries := w.tries }
      (∀ m, ∀ q ∈ s.noc.of m, q.body.ask ≠ some o) → exec (.nocWatchdog b tag) s = .next (again s o x w e).advanceAll) ∧
    (∃ t, exec (.ageIncrement mesh k) s = .next t ∧ { t with noc := s.noc } = s ∧ ∀ m i, (t.noc.of m)[i]? =
      if m = mesh ∧ i = k then ((s.noc.of m)[i]?).map fun p => { p with age := min 15 (p.age + 1) } else (s.noc.of m)[i]?) ∧
    (s.usable n = true → v.ecc = [] →
      let (hr, hw, rm) := v.splitUsed
      let charged := if portB then (match cls with | .hostRead => (hr + 1, hw, rm) | .hostWrite => (hr, hw + 1, rm) | .remote => (hr, hw, rm + 1)) else (hr, hw, rm)
      exec (.portRetry b cls portB false addr data) s = .next (s.modBench n fun v => { v with splitUsed := charged }) ∧
      ∃ t, exec (.portRetry b cls portB true addr data) s = .next t ∧
        (∀ i, i < data.length → addr.toNat + i < 0x200000 → (t.bench n).drawer.get (addr.toNat + i) = data.getD i 0) ∧
        (∀ a, a < addr.toNat ∨ addr.toNat + data.length ≤ a → (t.bench n).drawer.get a = v.drawer.get a) ∧
        (∀ k, k ≠ n → t.bench k = s.bench k) ∧ (t.bench n).splitUsed = charged)

/-- Patrol, forced and verifying scrubs: PATROL_SCRUB of a bench memory takes the next code word in ascending order, returning to
word 0 after the last, and where it finds one wrong bit in a word without a permanent fault leaves the word correct, and where
it finds a first uncorrectable error leaves the word poisoned; other words of the bench keep their check bits. The code words
of the pattern slots are followed by those of the applied-pattern register. PATROL_SCRUB of a Veneer slice takes the next of
its 2^19 data words or 2^15 tag words. FORCED_SCRUB charges one port B cycle to its class and takes the 16 code words of the
next of the 512 rows of its quarter, each mended in the same way. SCRUB_VERIFY writes back the oldest queued word in the same
way and takes it from the queue. (R57, R248, R348, R354, R355, R369, R370, R633) -/
def Obligations.Scrubbing : Prop :=
  ∀ (s : State) (b : Bench7) (sl : BitVec 4) (cls : SplitClass) (qr : BitVec 6), s.clocked = true →
    let n := b.toNat
    let v := s.bench n
    let mended (t : State) (key : Nat) : Prop :=
      (tget Ecc.ok v.ecc key = .single → tget Ecc.ok (t.bench n).ecc key = .ok) ∧
      (tget Ecc.ok v.ecc key = .double → tget Ecc.ok (t.bench n).ecc key = .poison) ∧
      (tget Ecc.ok v.ecc key = .ok ∨ tget Ecc.ok v.ecc key = .poison → tget Ecc.ok (t.bench n).ecc key = tget Ecc.ok v.ecc key) ∧
      (∀ q, q ≠ key → tget Ecc.ok (t.bench n).ecc q = tget Ecc.ok v.ecc q)
    let patrols (site : MemSite) (code words : Nat) : Prop :=
      let at_ := tget 0 v.scrubAt code
      s.usable n = true → v.uncorAt = none → code * 2 ^ 24 + at_ ∉ v.stuck → ∃ t, exec (.patrolScrub site) s = .next t ∧
        tget 0 (t.bench n).scrubAt code = (at_ + 1) % words ∧ mended t (code * 2 ^ 24 + at_) ∧ (t.bench n).drawer = v.drawer
    let sweeps (site : MemSite) (code words : Nat) : Prop := ∃ t, exec (.patrolScrub site) s = .next t ∧
      tget 0 t.veneer.scrubAt code = (tget 0 s.veneer.scrubAt code + 1) % words
    let row := tget 0 v.scrubRow qr.toNat
    let inRow (q : Nat) : Prop := 16 * (512 * qr.toNat + row) ≤ q ∧ q < 16 * (512 * qr.toNat + row) + 16
    patrols (.drawer b) 0 524288 ∧ patrols (.idrawer b) 1 16384 ∧ patrols (.boardFile b) 2 11264 ∧ patrols (.slots b) 3 542 ∧
    patrols (.mailbox b) 6 64 ∧ patrols (.context b) 7 256 ∧
    sweeps (.veneerData sl) sl.toNat (2 ^ 19) ∧ sweeps (.veneerTags sl) (sl.toNat + 16) (2 ^ 15) ∧
    (s.usable n = true → (∀ q, inRow q → q ∉ v.stuck ∧ tget Ecc.ok v.ecc q ≠ .double) → ∃ t, exec (.forcedScrub b cls qr) s = .next t ∧
      tget 0 (t.bench n).scrubRow qr.toNat = (row + 1) % 512 ∧ (t.bench n).drawer = v.drawer ∧
      (t.bench n).splitUsed = (let (hr, hw, rm) := v.splitUsed
        match cls with | .hostRead => (hr + 1, hw, rm) | .hostWrite => (hr, hw + 1, rm) | .remote => (hr, hw, rm + 1)) ∧
      ∀ q, tget Ecc.ok (t.bench n).ecc q = if inRow q ∧ tget Ecc.ok v.ecc q = .single then .ok else tget Ecc.ok v.ecc q) ∧
    (s.usable n = true → ∀ key rest, v.scrubQ = key :: rest → key ∉ rest → key ∉ v.stuck → ∃ t, exec (.scrubVerify b) s = .next t ∧
      mended t key ∧ (t.bench n).scrubQ = rest ∧ (t.bench n).drawer = v.drawer)

/-- The ends of wipes, clears and way invalidations: SECURE_WIPE_DONE ends the wipe, logs its trigger and its duration and lets
the transfers that waited for it go on, and where a voltage or clock source began it the device enters reset with that cause.
CLEAR_DONE in step 6 of start-up leaves every drawer, instruction drawer, board file and pattern slot zero and without errors,
opens the Control Bus and starts the destructive plane run on every usable bench; after a tamper of a voltage or clock source
in the clear, the device enters reset instead. BENCH_CLEAR_DONE leaves the memories of its bench zero and ends the clear.
VENEER_INVAL_DONE clears BUSY of the partition's ways. (R344, R352, R359, R513, R644, R664) -/
def Obligations.WipesAndClears : Prop :=
  ∀ (s : State) (b : Bench7) (p : Part3) (us : Nat),
    let n := b.toNat
    (s.clocked = true → ∀ trigger, s.glb.wipe = some trigger →
      let t := ({ s with glb := { s.glb with wipe := none } } : State).logAll srcForeman 0x90 (BitVec.ofNat 32 trigger) (BitVec.ofNat 32 us) 0
      (s.glb.wipeReset = none → exec (.secureWipeDone us) s = .next t.advanceAll) ∧
      (∀ c, s.glb.wipeReset = some c → exec (.secureWipeDone us) s = .next (t.enterReset c))) ∧
    (s.clocked = true → s.dev.phase = .clear → ∀ c, s.glb.wipeReset = some c → exec .clearDone s = .next (s.enterReset c)) ∧
    (s.clocked = true → s.dev.phase = .clear → s.glb.wipeReset = none → ∃ t, exec .clearDone s = .next t ∧ t.dev.phase = .planes ∧ t.glb.clearDone = true ∧
      t.cbOpen = true ∧ t.glb.mbist.busy = true ∧ t.veneer.lines = [] ∧
      ∀ k, k < 128 → (∀ a, (t.bench k).drawer.get a = 0 ∧ (t.bench k).idrawer.get a = 0) ∧ (t.bench k).boards = [] ∧
        (t.bench k).slots = [] ∧ (t.bench k).glue = {} ∧ (t.bench k).spec = [] ∧ (t.bench k).ecc = [] ∧
        (s.usable k = true → (t.bench k).plane = .running false)) ∧
    (s.alive = true → (s.bench n).clearing = true → (s.bench n).xfers = [] → exec (.benchClearDone b) s = .next (s.modBench n fun v => { v with
      clearing := false, drawer := [], idrawer := [], ecc := [], boards := [], glue := {}, slots := [], spec := [], applied := {}
      scrubQ := [], unseen := [] })) ∧
    (s.alive = true → exec (.veneerInvalDone p) s = .next (s.modTen p.toNat fun t => { t with waysBusy := false, waysInv := 0 }))

/-- The plane engine: While the Control Bus serves and the plane engine rests, a write of GLB_MBIST_CTL without START stores the
fields; one with START and a mode above 1, for an unusable bench, or destructive for a bench of a partition, changes nothing
but the response; a destructive START for one usable bench outside every partition starts the run on it. a preserving one
waits for the tasks of its bench. PLANE_RUN_BEGIN starts a waiting preserving run once every context of its bench is EMPTY.
PLANE_RUN_END without failures, when no bench still waits, zeroes the selected memories of the benches in a destructive run,
keeps those of a preserving one, empties the Veneer cache after a destructive run over it and keeps it otherwise, ends the run
on each and shows no failure. (R361, R362, R363, R364, R365) -/
def Obligations.PlaneRuns : Prop :=
  ∀ (s : State) (b : Bench7) (v : Word),
    let n := b.toNat
    let m := s.glb.mbist
    let mode := v.toNat / 2 ^ 25 % 4
    let target := v.toNat % 128
    let all := v.getLsbD 24
    let mem : BitVec 4 := v.extractLsb' 20 4
    let served (t : State) : State := { t with glb := { t.glb with resp := (0, 0) } }
    let stored (busy veneer : Bool) (run : BitVec 4) : Mbist :=
      { m with mode := (if mode < 2 then mode else m.mode), all := all, mem := mem, bench := target, busy := busy, veneer := veneer, runMem := run }
    (s.cbOpen = true → v.getLsbD 31 = false →
      exec (.glbMbistCtl v) s = .next (served { s with glb := { s.glb with mbist := stored m.busy m.veneer m.runMem } })) ∧
    (s.cbOpen = true → v.getLsbD 31 = true →
      m.busy = true ∨ 2 ≤ mode ∨ (all = false ∧ s.usable target = false) ∨ (mode = 0 ∧ all = false ∧ (s.partOf target).isSome = true) →
      exec (.glbMbistCtl v) s = .next (served s)) ∧
    (s.cbOpen = true → v.getLsbD 31 = true → m.busy = false → mode = 0 → all = false → s.usable target = true → s.partOf target = none →
      ∃ veneer, exec (.glbMbistCtl v) s = .next (served ({ s.modBench target fun x => { x with plane := .running false } with
        glb := { s.glb with mbist := stored true veneer mem } }))) ∧
    (s.cbOpen = true → v.getLsbD 31 = true → m.busy = false → mode = 1 → all = false → s.usable target = true →
      ∃ veneer, exec (.glbMbistCtl v) s = .next (served ({ s.modBench target fun x => { x with
        plane := if x.hasTask then .waiting else .running true } with
        glb := { s.glb with mbist := stored true veneer mem } }))) ∧
    (s.alive = true → (s.bench n).plane = .waiting → (∀ k, k < 4 → ((s.bench n).ctx k).status = .empty) →
      exec (.planeRunBegin b) s = .next (s.modBench n fun x => { x with plane := .running true })) ∧
    (s.alive = true → m.busy = true → s.dev.phase = .running → s.dev.rest = .awake → s.glb.mboxGo = none →
      (∀ e ∈ s.benches, e.2.plane ≠ .waiting) → twf {} s.benches = true → ∃ t, exec (.planeRunEnd []) s = .next t ∧
        t.glb.mbist.busy = false ∧ t.glb.mbist.fail = false ∧ t.glb.mbist.failBench = 0xFF ∧
        ∀ k, ((s.bench k).plane = .running false →
            (m.runMem.getLsbD 0 = true → (t.bench k).drawer = []) ∧ (m.runMem.getLsbD 1 = true → (t.bench k).idrawer = []) ∧
            (m.runMem.getLsbD 2 = true → (t.bench k).boards = [] ∧ (t.bench k).slots = []) ∧ (t.bench k).plane = .none) ∧
          ((s.bench k).plane = .running true → t.bench k = { s.bench k with plane := .none, planeOk := true }) ∧
          ((s.bench k).plane = .none → t.bench k = s.bench k) ∧
          (m.veneer = true → m.mode ≠ 1 → t.veneer.lines = [] ∧ t.veneer.ecc = []) ∧
          (m.veneer = false ∨ m.mode = 1 → t.veneer.lines = s.veneer.lines ∧ t.veneer.ecc = s.veneer.ecc))

/-- The boundary counts the stroke; HOLDOVER, MASTER and FREERUN: Whenever the ports and the stroke reference are clocked,
STROKE_BOUNDARY answers a next state in which the stroke count is one more than it was and the cycle count is 0. A marker that
was adopted has brought LOCKED: an offset of more than 64 cycles, to the nearest, is removed in the stroke that begins, and a
smaller one is slewed by one cycle of it; without one, one cycle of the offset that is left is slewed. STROKE_HOLDOVER after
two silent strokes in LOCKED enters HOLDOVER and is logged with the lost master's rank, a CANDIDATE naming itself as master;
ENTER_MASTER of a CANDIDATE with an ACTIVE port after eight strokes without a better marker, or in HOLDOVER, enters MASTER and
leaves the count and the phase; STROKE_FREERUN after 64 strokes in HOLDOVER enters FREERUN, suspends the tick plan and is
logged. None of the last three changes anything else. (R34, R35, R36, R62, R63, R64, R79, R80, R82) -/
def Obligations.StrokeBoundaryAndStates : Prop :=
  ∀ s : State, s.clocked = true →
    let k := s.stroke
    (∃ t, exec .strokeBoundary s = .next t ∧ t.stroke.count = k.count + 1 ∧ t.stroke.cycle = 0 ∧
      (∀ m, k.adopt = some m → t.stroke.state = 2 ∧ t.stroke.adopt = none ∧
        let off := (k.adoptBy + 5) / 10
        (64 < off.natAbs → t.stroke.span = ((2 ^ k.len : Int) + off).toNat ∧ t.stroke.slew = 0) ∧
        (off.natAbs ≤ 64 → t.stroke.span = ((2 ^ k.len : Int) + off.sign).toNat ∧ t.stroke.slew = off - off.sign)) ∧
      (k.adopt = none → t.stroke.span = ((2 ^ k.len : Int) + k.slew.sign).toNat ∧ t.stroke.slew = k.slew - k.slew.sign)) ∧
    (k.state = 2 → 2 ≤ k.silent → k.adopt = none → exec .strokeHoldover s =
      .next (({ s with stroke := { k with state := 4, held := 0, lost := k.master, slew := 0
                                          master := if k.role = 2 then some (k.rank.toNat, s.dev.id.toNat) else k.master } } : State).logAll
        0xFF 0x04 (BitVec.ofNat 32 (match k.master with | some m => m.1 | none => 0xFFF)) 0 0)) ∧
    (k.role = 2 → k.adopt = none → (k.state = 1 ∧ 8 ≤ k.listened ∧ ∃ p, p < 16 ∧ (s.port p).live = true) ∨ k.state = 4 → exec .enterMaster s =
      .next { s with stroke := { k with state := 3, master := some (k.rank.toNat, s.dev.id.toNat), lost := none, slew := 0, stepBy := 0 } }) ∧
    (k.state = 4 → 64 ≤ k.held → k.adopt = none → exec .strokeFreerun s =
      .next (({ s with stroke := { k with state := 5, planOn := false, suspended := true, master := none } } : State).logAll 0xFF 0x06 0 0 0))

/-- STROKE markers and TIMING exchanges: While a port is clocked and trained, a marker shows its arrival less the one-way latency
of the port, which is half the measured round trip. In LOCKED, one of the followed master on the primary path brings a slew of
its offset, to the nearest cycle, one cycle of it in the present stroke, but for a stroke that makes a step, and marks the
stroke as heard, where no marker of the redundant path is there to compare. In ACQUIRE, one of a better master starts the
count of listened strokes anew; a device that is no CANDIDATE and has adopted none takes the count of a marker of its own LEN
on a path to the master that it names; one of another LEN is not taken and is logged once. A LOCAL device takes none.
LATENCY_MEASURE keeps the time at which the request left, TIMING_REQ queues the answer with the echoed time, and TIMING_RSP to
the request in flight measures the round trip as the time since it less the turnaround; the last exchange counts (the model's
choice, log 106). (R39, R42, R43, R44, R62, R63, R64, R411) -/
def Obligations.MarkersAndTiming : Prop :=
  ∀ (s : State) (port : Port4) (m : Marker) (ts ta now : Word), s.clocked = true →
    let p := port.toNat
    let k := s.stroke
    let mm : Nat × Nat := (m.masterRank.toNat, m.masterId.toNat)
    let off : Int := m.arrival - ((match (s.port p).rtt with | some x => x / 2 | none => 0 : Nat) : Int)
    let cyc := (off + 5) / 10
    let better := mm.1 < k.rank.toNat ∨ (mm.1 = k.rank.toNat ∧ mm.2 < s.dev.id.toNat)
    let heard : Stroke := { k with listened := if better then 0 else k.listened }
    ((s.port p).live = true → m.masterId ≠ s.dev.id →
      (∀ r, k.state = 2 → k.master = some mm → s.pathsTo mm.2 = some (p, r) → k.redundant = none →
        (k.stepBy = 0 → exec (.stroke port m) s = .next { s with stroke := { k with
          heard := true, primary := some off, slew := cyc - cyc.sign, span := ((2 ^ k.len : Int) + cyc.sign).toNat } }) ∧
        (k.stepBy ≠ 0 → exec (.stroke port m) s = .next { s with stroke := { k with heard := true, primary := some off } })) ∧
      (k.state = 1 → m.len.toNat = k.len → k.role ≠ 2 → s.onPath p mm.2 = true → k.adopt = none →
        exec (.stroke port m) s = .next { s with stroke := { heard with
          count := m.count, master := some mm, adopt := some m, adoptBy := off, heard := true } }) ∧
      (k.state = 1 → m.len.toNat ≠ k.len → k.lenLogged = false → exec (.stroke port m) s =
        .next (({ s with stroke := { heard with lenLogged := true } } : State).logAll 0xFF 0x09 (BitVec.ofNat 32 m.len.toNat) (BitVec.ofNat 32 k.len) 0)) ∧
      (k.state = 1 → m.len.toNat ≠ k.len → k.lenLogged = true → exec (.stroke port m) s = .next { s with stroke := heard }) ∧
      (k.state = 0 → exec (.stroke port m) s = .next s)) ∧
    ((s.port p).live = true ∨ (s.port p).st = .measure →
      exec (.latencyMeasure port now) s = .next (s.modPort p fun q => { q with asked := some now }) ∧
      exec (.timingReq port ts ta) s = .next (s.modPort p fun q => { q with ctl := q.ctl ++ [(ts, ta)] }) ∧
      ((s.port p).asked = some ts → exec (.timingRsp port ts ta now) s =
        .next (s.modPort p fun q => { q with rtt := some (now - ts - ta).toNat, timings := q.timings + 1, asked := none })))

/-- The training of a port and its faults: While the ports are clocked, each LINK_TRAINING_STEP takes a port to the step that R425
names next: from DETECT to IDENTIFY with the bypass open, from IDENTIFY to CHECK once the peer's TRAIN block has come, from
CHECK to EQUALISE where the wiring passes and out of training with a log entry where it does not, then to LOCK, to MEASURE,
and after 16 TIMING exchanges to ACTIVE. A time-out or a failure of LOCK leaves the port waiting with one failure more, logged
at the third and every eighth after it, and LINK_TRAIN_RETRY returns it to DETECT. LINK_MARGIN_CHECK records the margin, and
retrains a bad port that may retrain; LINK_DOWN returns the port to DETECT, or for the third time within 2^20 strokes out of
service for good; BYPASS_PUMP outside its limits closes the bypass and returns every enabled port to DETECT. (R421, R425,
R426, R436, R442, R628, R635) -/
def Obligations.PortTraining : Prop :=
  ∀ (s : State) (port : Port4) (t : TrainInfo) (ber : Bool) (margin un : BitVec 8) (cause : BitVec 2) (mv : Int), s.clocked = true →
    let p := port.toNat
    let q := s.port p
    let onto (x : LinkSt) : Out := .next (s.modPort p fun q => { q with st := x })
    let step := exec (.linkTrainingStep port) s
    let mine : Nat := s.links.maxrate.toNat / 4 ^ p % 4
    (q.st = .identify → exec (.train port t) s = .next (s.modPort p fun q => { q with peer := some t })) ∧
    (q.st = .detect → step = .next { s.modPort p fun q => { q with st := .identify, peer := none } with links := { s.links with closed := false } }) ∧
    (q.st = .identify → q.peer = some t → step = onto .check) ∧
    (q.st = .check → q.peer = some t →
      (s.wireCheck p t = .pass → step = .next (s.modPort p fun q => { q with
        st := .equalise, rate := max (max (s.peerDist p t - 1) (min 2 mine)) (min 2 t.maxRate.toNat) })) ∧
      (s.wireCheck p t = .miswired → ∃ i1 i2, step = .next ((s.modPort p fun q => { q with st := .barred }).logAll (srcPort p) 0x24 (BitVec.ofNat 32 p) i1 i2)) ∧
      (s.wireCheck p t = .broken → step = .next ((s.modPort p fun q => { q with st := .barred }).logAll (srcPort p) 0x25 (BitVec.ofNat 32 p) 0 0))) ∧
    (q.st = .equalise → step = onto .lock) ∧
    (q.st = .lock → step = .next (s.modPort p fun q => { q with st := .measure, timings := 0, asked := none })) ∧
    (q.st = .measure → 16 ≤ q.timings → ∃ z, step = .next z ∧ (z.port p).st = .active ∧ (z.port p).fails = 0 ∧ (z.port p).retrain = false ∧
      (q.retrain = false → (z.port p).rxSeq = 0)) ∧
    (q.st = .identify ∨ q.st = .check ∨ q.st = .equalise ∨ q.st = .lock ∨ q.st = .measure → ∃ z, exec (.linkTrainTimeout port) s = .next z ∧
      (z.port p).st = .waiting ∧ (z.port p).fails = q.fails + 1 ∧
      (z.reports = s.reports ↔ q.fails < 2 ∨ (q.fails - 2) % 8 ≠ 0)) ∧
    (q.st = .waiting → exec (.linkTrainRetry port) s = onto .detect) ∧
    (q.live = true →
      let read := s.modPort p fun q => { q with margin := margin.toNat, uncor := q.uncor + un.toNat }
      let bad := ber = true ∨ margin.toNat < s.links.marginMin ∨ 4 ≤ un.toNat
      (¬ bad ∨ s.links.retrainEn = false → exec (.linkMarginCheck port ber margin un) s = .next read) ∧
      (bad → s.links.retrainEn = true → (s.port (p ^^^ 1)).retrain = false → ∃ z, exec (.linkMarginCheck port ber margin un) s = .next z ∧
        z.port p = { read.port p with st := .equalise, retrain := true, planOn := false })) ∧
    (q.live = true → cause = 1 ∨ (cause = 2 ∧ q.replay ≠ []) ∨ (cause = 3 ∧ 16 ≤ q.sends) →
      let thrice := 2 ≤ (q.downs.filter fun a => decide (s.now < a + 2 ^ 20)).length
      ∃ z, exec (.linkDown port cause) s = .next z ∧ (z.port p).planOn = false ∧
        (¬ thrice → (z.port p).st = .detect ∧ (z.port p).dead = q.dead) ∧ (thrice → (z.port p).st = .off ∧ (z.port p).dead = true)) ∧
    (mv < -1200 ∨ -800 < mv → ∃ z, exec (.bypassPump mv) s = .next z ∧ z.links.closed = true ∧ ∀ k, k < 16 →
      (z.port k).st = if (s.port k).st = .off ∨ (s.port k).st = .barred then (s.port k).st else .detect)

/-- Flits, slots of the tick plan, and the rack slots that they drain and fill: While a port is clocked and trained and nothing
waits at the ports: IDLE drops what it acknowledges from the replay buffer, returns the credits and counts a NAK as a replay;
a flit with a bad CRC asks for it again; SLOT_START enters the slot, and where its one entry drains a rack with a published
slot and the entry and the slot have room, the slot's bytes leave on time in flits of up to 240, the last marked, and the rack
slot is taken and, its last byte gone, released. A SLOT_DATA or SLOT_END flit of 1 to 240 bytes that is the next expected and
matches one RECEIVE entry, of an enabled rack that the plan fills, with a free slot, none being filled and no discard in
force: SLOT_DATA reserves the next slot and writes the bytes at its start, up to the slot's size; SLOT_END does so, commits
the slot, and gives it a poison flag for a poisoned or an overlong flit. One that matches no entry is discarded at its
destination, and held elsewhere while no port leads on; one that is not the next expected changes no bench. (R47, R51, R53,
R54, R320, R412, R413, R415, R431, R432) -/
def Obligations.FlitsAndSlots : Prop :=
  ∀ (s : State) (port : Port4) (h : FlitHdr) (slot : BitVec 6) (d : List Byte), s.clocked = true →
    let p := port.toNat
    let q := s.port p
    let next (t : State) : Prop := (t.port p).rxSeq = (q.rxSeq + 1) % 4096
    q.live = true → (∀ x, (s.port x).queue = [] ∧ (s.port x).waiting = [] ∧ (s.port x).freed = [] ∧ (s.port x).back = []) →
    (∃ t, exec (.idle port h) s = .next t ∧ t.benches = s.benches ∧ (t.port p).rxSeq = q.rxSeq ∧
      let n := match q.replay.head? with | some f => (h.ackseq.toNat + 4097 - f.seq) % 4096 | none => 0
      let left := if n ≤ q.replay.length then q.replay.drop n else q.replay
      (t.port p).replay = left ∧ (t.port p).replays = (if h.nak = true ∧ left ≠ [] then q.replays + 1 else q.replays) ∧
      ∀ v, tget 0 (t.port p).used v = tget 0 q.used v - if v = h.crvc.toNat then h.crcnt.toNat else 0) ∧
    exec (.flitCrcFailure port) s = .next (s.modPort p fun q => { q with nakSent := true }) ∧
    (∃ t, exec (.slotStart port slot) s = .next t ∧ (t.port p).slotNow = some slot.toNat ∧ (t.port p).ctl = [] ∧
      (∀ x ∈ (t.port p).transit, x.1 ≠ slot.toNat) ∧
      ∀ r, (s.activePlan.filter fun r => peKind r.2.2 < 2 && pePort r.2.2 = p && peSlot r.2.2 = slot.toNat) = [r] → peKind r.2.2 = 0 → q.transit = [] →
        let b := peBench r.2.2
        let x := peRack r.2.2
        let k := (s.bench b).rack x
        let data := (s.bench b).drawer.getBytes (k.base + k.acq.toNat % 2 ^ k.sizelog * 2 ^ k.slotlog) (2 ^ k.slotlog)
        let n := (2 ^ k.slotlog + 239) / 240
        s.alive = true → s.usable b = true → k.enable = true → k.cons = 2 → k.pub ≠ k.acq → (s.bench b).ecc = [] → n ≤ peFlits r.2.2 →
        n ≤ usableFlits s.stroke.len q.rate → q.replay.length + n ≤ 512 →
        ((t.bench b).rack x).acq = k.acq + 1 ∧ ((t.bench b).rack x).rel = k.rel + 1 ∧ (t.bench b).drawer = (s.bench b).drawer ∧
        (t.port p).slotUsed = n ∧ (t.port p).replay.take q.replay.length = q.replay ∧
        let sent := (t.port p).replay.drop q.replay.length
        sent.length = n ∧ sent.flatMap (·.payload) = data ∧
        ∀ i f, sent[i]? = some f → f.kind = (if i + 1 = n then 6 else 5) ∧ f.cred = false ∧ f.dest = peDest r.2.2 ∧ f.slot = slot.toNat ∧
          f.seq % 4096 = (q.txSeq + i) % 4096) ∧
    (h.seq.toNat ≠ q.rxSeq → 0 < d.length → d.length ≤ 240 → ∃ t,
      exec (.slotData port h d) s = .next t ∧ exec (.slotEnd port h d) s = .next t ∧ t.benches = s.benches ∧ (t.port p).nakSent = true) ∧
    (h.seq.toNat = q.rxSeq → 0 < d.length → d.length ≤ 240 → s.matching p h.slot.toNat h.dest.toNat = [] →
      (h.dest = s.dev.id → (∃ t, exec (.slotData port h d) s = .next t ∧ t.benches = s.benches ∧ next t) ∧
        ∃ t, exec (.slotEnd port h d) s = .next t ∧ t.benches = s.benches ∧ next t) ∧
      (h.dest ≠ s.dev.id → s.nextHop h.dest.toNat h.src.toNat = none → ∀ last : Bool, ∃ t f,
        exec (if last then .slotEnd port h d else .slotData port h d) s = .next t ∧ t.links.held = s.links.held ++ [(p, f)] ∧ f.payload = d ∧
        f.dest = h.dest.toNat ∧ f.kind = (if last then 6 else 5) ∧ t.benches = s.benches ∧ next t)) ∧
    (h.seq.toNat = q.rxSeq → 0 < d.length → d.length ≤ 240 → ∀ a, s.matching p h.slot.toNat h.dest.toNat = [a] → peKind a.2.2 = 2 →
      let b := peBench a.2.2
      let r := peRack a.2.2
      let k := (s.bench b).rack r
      let size := 2 ^ k.slotlog
      let at_ := k.base + k.res.toNat % 2 ^ k.sizelog * size
      let i := a.2.1
      s.usable b = true → k.enable = true → k.prod = 2 → i ∉ k.discard → k.fills = [] → 0 < k.freeSlots → i ∉ k.poisonNext →
      let lands (t : State) : Prop := (∀ j, j < d.length → j < size → (t.bench b).drawer.get (at_ + j) = d.getD j 0) ∧
        (∀ x, x < at_ ∨ at_ + min d.length size ≤ x → (t.bench b).drawer.get x = (s.bench b).drawer.get x) ∧
        ((t.bench b).rack r).res = k.res + 1 ∧ (∀ c, c ≠ b → t.bench c = s.bench c) ∧ next t
      (∃ t, exec (.slotData port h d) s = .next t ∧ lands t ∧ ((t.bench b).rack r).cmt = k.cmt ∧
        ((t.bench b).rack r).fills = [{ cnt := k.res.toNat, idx := i, bytes := min d.length size, poison := h.poison || decide (size < d.length) }]) ∧
      (∃ t, exec (.slotEnd port h d) s = .next t ∧ lands t ∧ ((t.bench b).rack r).cmt = k.cmt + 1 ∧ ((t.bench b).rack r).fills = [] ∧
        tget false ((t.bench b).rack r).poison (k.cmt.toNat % 2 ^ k.sizelog) = (h.poison || decide (size < d.length))))

/-- PUT, GET, ACCUMULATE, POST and DOWEL arrive and are served: While the device runs, a port is trained, nothing waits at the
ports and no transfer is in flight, a message that is the next expected: one for another device leaves whole by the port that
leads there, and one for this device that is well formed enters REQ on VN1 once the credits of its answer are free at the port
that leads back, which it takes, its input buffer's credits going back; without them it waits, and a malformed one changes no
bench and no mesh. At the bench that admits it, a GET is answered with its bytes, a PUT or ACCUMULATE is granted a landing,
whose data then are written or added in their type, a POST that is no notification adds an entry to a mailbox with room and
sets JIPEND.MBOX, a notification sets JIPEND.DOWEL only; a DOWEL message adds to, sets, waits for or clears the dowel that it
names. The end that returns to the port sends the ACK. (R377, R378, R383, R386, R415, R417, R419, R427, R434, R435, R576,
R581) -/
def Obligations.RequestsFromOtherDevices : Prop :=
  ∀ (s : State) (port : Port4) (h : FlitHdr) (w : MsgHdr), s.alive = true →
    let p := port.toNat
    let q := s.port p
    q.live = true → (∀ x, (s.port x).queue = [] ∧ (s.port x).waiting = [] ∧ (s.port x).freed = [] ∧ (s.port x).back = []) →
    (∀ k, (s.bench k).xfers = []) →
    let db := w.w0.toNat / 2 ^ 8 % 128
    let ty := w.w0.toNat / 16 % 16
    let len := w.w3.toNat
    let me := s.dev.id
    let kind (n : Nat) := w.w0.toNat % 16 = n ∧ w.w0.toNat < 2 ^ 28 ∧ (n ≠ 3 → ty = 0)
    let ranged := len < 2 ^ 24 ∧ (len = 0 ∨ w.w1.toNat + len ≤ 0x200000)
    let msg (mop : Nat) (x : List Byte) : OutMsg :=
      { mop := mop, dev := h.dest.toNat, part := h.part.toNat, w0 := w.w0, w1 := w.w1, w2 := w.w2, w3 := w.w3, data := x, poison := h.poison
        src := some h.src.toNat, inVc := some h.vc.toNat }
    let run (n : Nat) (x : List Byte) : Instr := match n with
      | 0 => .put port h w x | 1 => .get port h w | 3 => .accumulate port h w x | 4 => .post port h w | _ => .dowel port h w
    let good (n : Nat) := kind n ∧ match n with
      | 0 => ranged ∧ w.w2 = 0 | 1 => ranged | 3 => ranged ∧ w.w2 = 0 ∧ ty < 6 | 4 => w.w1 = 0
      | _ => w.w1.toNat < 2 ^ 8 ∧ w.w1.toNat / 32 ∈ [0, 1, 2, 4] ∧ w.w3 = 0
    (h.seq.toNat = q.rxSeq → ∀ n ∈ [0, 1, 3, 4, 5], ∀ x : List Byte, (n ≠ 0 → n ≠ 3 → x = []) →
      let m := msg n x
      let flits := (msgPayloads m).length
      let need := if n = 1 then min 256 (1 + (len - 224 + 239) / 240) else 1
      let o : Ask := { who := .port p, tag := q.nextServe, write := decide (n = 0 ∨ n = 3) }
      (h.dest ≠ me → kind n → ∀ k plus out, s.nextHop h.dest.toNat h.src.toNat = some (k, plus, out) → out ≠ p → ∃ t, exec (run n x) s = .next t ∧
        t.benches = s.benches ∧ t.noc = s.noc ∧
        ((t.port out).replay ++ (t.port out).queue).map (·.payload) = (s.port out).replay.map (·.payload) ++ msgPayloads m) ∧
      (h.dest = me → good n → ∀ k plus out, s.nextHop h.src.toNat me.toNat = some (k, plus, out) →
        let vc := s.hopVc k plus out true false
        let used := tget 0 (if out = p then (q.control h).used else (s.port out).used) vc
        (used + need ≤ 256 → exec (run n x) s = .next
          ((((s.modPort p fun q => { q.control h with rxSeq := (q.rxSeq + flits) % 4096, nakSent := false }).modPort out fun q =>
            { q with used := tset 0 q.used vc (tget 0 q.used vc + need) }).modPort p fun q =>
            { q with owed := tset 0 q.owed h.vc.toNat (tget 0 q.owed h.vc.toNat + flits)
                     serving := q.serving ++ [{ num := q.nextServe, msg := m, out := out, vc := vc, paid := need }]
                     nextServe := q.nextServe + 1 }).inject .req (.port p) [if n = 5 then .foreman else .bench db] 1 h.part.toNat false
            (if n = 1 then .read o else if n = 0 ∨ n = 3 then .write o else .op o))) ∧
        (256 < used + need → ∃ t, exec (run n x) s = .next t ∧ (t.port p).waiting = [m] ∧
          t.benches = s.benches ∧ t.noc = s.noc)) ∧
      (h.dest = me → kind n → ¬ good n → ∃ t, exec (run n x) s = .next t ∧ t.benches = s.benches ∧ t.noc = s.noc)) ∧
    (∀ i pk v j, pk.dst = [.bench j] → s.served? p v.num = some v → v.tries = 0 → s.usable j = true → v.msg.w0.toNat / 2 ^ 8 % 128 = j →
      let m := v.msg
      let o : Ask := { who := .port p, tag := v.num, write := m.mop = 0 || m.mop = 3 }
      let r (mesh : NocMesh) : State := { s with noc := s.noc.reached mesh pk }
      let off := m.w1.toNat
      let len := m.w3.toNat % 2 ^ 24
      let finish (t : State) (st : Nat) : State := t.inject .rsp (.bench j) [.port p] 0 pk.part pk.secure (.done o st)
      (s.noc.req[i]? = some pk → s.noc.canReach .req i = true → s.reqHeld pk = false → s.noc.cut .req pk = false → (s.ten pk.part).mask.getLsbD j = true →
        (m.mop = 1 → pk.body = .read o → off + len ≤ 0x1E0000 → (s.bench j).ecc = [] → exec (.nocRequest i none) s =
          .next (finish ((r .req).inject .dat (.bench j) [.port p] 2 pk.part pk.secure (.data o ((s.bench j).drawer.getBytes off len) false)) 0)) ∧
        (m.mop = 0 ∨ m.mop = 3 → pk.body = .write o → off + len ≤ 0x1E0000 → (∀ l ∈ s.noc.landings, l.1 ≠ .bench j) → ∃ t, exec (.nocRequest i none) s = .next t ∧
          (.bench j, o, pk.part) ∈ t.noc.landings ∧ t.benches = s.benches ∧ ∃ g ∈ t.noc.rsp, g.body = .grant o ∧ g.dst = [.port p]) ∧
        (m.mop = 4 → pk.body = .op o → m.w2.toNat / 2 ^ 16 ≠ 0xD0E1 → (s.bench j).mailbox.length < 16 → (s.bench j).ecc = [] →
          exec (.nocRequest i none) s = .next (finish ((r .req).modBench j fun v => { v with
            jipend := v.jipend ||| 1, mailbox := v.mailbox ++ [{ dev := BitVec.ofNat 12 (match m.src with | some a => a | none => me.toNat)
                                                                 bench := m.w0.extractLsb' 15 7, w0 := m.w2, w1 := m.w3 }] }) 0)) ∧
        (m.mop = 4 → pk.body = .op o → m.w2.toNat / 2 ^ 16 = 0xD0E1 → exec (.nocRequest i none) s = .next (finish ((r .req).setPend j 1) 0))) ∧
      (s.noc.dat[i]? = some pk → s.noc.canReach .dat i = true → s.noc.cut .dat pk = false → pk.body = .wdata o → (.bench j, o, pk.part) ∈ s.noc.landings →
        m.poison = false → (s.bench j).ecc = [] → m.data.length = len → ∃ t, exec (.nocData i true none) s = .next t ∧
          (m.mop = 0 → ∀ k, k < len → (t.bench j).drawer.get (off + k) = m.data.getD k 0) ∧
          (m.mop = 3 → ∀ x, accumTy (m.w0.toNat / 16 % 16) = some x → ∀ k, x.bytes * (k + 1) ≤ len →
            (t.bench j).drawer.getBytes (off + x.bytes * k) x.bytes = leBytes x.bytes
              (x.addEl (leNat ((s.bench j).drawer.getBytes (off + x.bytes * k) x.bytes)) (leNat ((m.data.drop (x.bytes * k)).take x.bytes)))) ∧
          (∀ a, a < off ∨ off + len ≤ a → (t.bench j).drawer.get a = (s.bench j).drawer.get a) ∧ (∀ c, c ≠ j → t.bench c = s.bench c) ∧
          ∃ g ∈ t.noc.rsp, g.body = .done o 0 ∧ g.dst = [.port p])) ∧
    (∀ i pk v, s.noc.req[i]? = some pk → s.noc.canReach .req i = true → s.noc.cut .req pk = false → pk.src = .port p → pk.dst = [.foreman] →
      s.served? p v.num = some v → v.msg.mop = 5 → let o : Ask := { who := .port p, tag := v.num }
      pk.body = .op o → pk.part = v.msg.part →
      let r : State := { s with noc := s.noc.reached .req pk }
      let x := v.msg.w1.toNat % 32
      let src := match v.msg.src with | some a => a | none => me.toNat
      let finish (t : State) (st : Nat) : State := t.inject .rsp .foreman [.port p] 0 pk.part pk.secure (.done o st)
      let full := 16 ≤ (s.ten pk.part).remote.length
      let does (op : Nat) (t : State) : Prop := v.msg.w1.toNat / 32 = op → exec (.nocRequest i none) s = .next t
      does 0 (finish (r.dowelAdd pk.part x v.msg.w2) 0) ∧ does 1 (finish (r.dowelTarget pk.part x v.msg.w2) 0) ∧
      does 4 (finish (r.dowelClear pk.part x) 0) ∧
      does 2 ((finish (if full then r else r.modTen pk.part fun t => { t with remote := t.remote ++ [(src, v.msg.w0.toNat / 2 ^ 15 % 128, x)] })
        (if full then 5 else 0)).dowelTest pk.part x)) ∧
    (∀ i pk v st, s.noc.rsp[i]? = some pk → s.noc.canReach .rsp i = true → pk.dst = [.port p] → s.served? p v.num = some v → v.tries = 0 →
      v.msg.mop ≠ 1 ∨ 2 ≤ st → pk.body = .done { who := .port p, tag := v.num, write := v.msg.mop = 0 || v.msg.mop = 3 } st →
      exec (.nocResponse i) s = .next ((({ s with noc := s.noc.reached .rsp pk } : State).modPort p fun q =>
        { q with serving := q.serving.filter fun u => u.num ≠ v.num }).answer v (ackOf v.msg me.toNat st)))

/-- GET_DATA, ACK and the response watchdog: While a port is clocked and trained and nothing waits at the ports, a response on a
response channel for this device that is the next expected gives its input buffer's credits back. For a tag whose message has
left and whose transfer awaits the response, GET_DATA sends the data of the waiting run, with their poison, on DAT and its end
on RSP to the bench, and an ACK sends the end of a PUT, an ACCUMULATE, a POST or a DOWEL with its status; for any other tag it
is discarded. MSG_TIMEOUT of a transfer that waits logs MSG_TIMEOUT; a PUT or GET that a port can carry is sent once more, and
anything else, or a second silence, ends with status 4 and the transfer goes on. (R383, R415, R417, R419, R440, R443) -/
def Obligations.AnswersFromOtherDevices : Prop :=
  ∀ (s : State) (port : Port4) (h : FlitHdr) (w : MsgHdr) (d : List Byte) (b : Bench7) (tag : BitVec 6),
    let p := port.toNat
    let n := b.toNat
    let k := tag.toNat
    (s.clocked = true → (s.port p).live = true → h.seq.toNat = (s.port p).rxSeq → h.dest = s.dev.id → 2 ≤ h.vc.toNat →
      (∀ x, (s.port x).queue = [] ∧ (s.port x).waiting = [] ∧ (s.port x).freed = [] ∧ (s.port x).back = []) →
      w.w0.toNat / 2 ^ 15 % 128 = n → w.w0.toNat / 2 ^ 22 % 64 = k →
      let seen (c : Nat) : State := s.modPort p fun q => { q.control h with
        rxSeq := (q.rxSeq + c) % 4096, nakSent := false, owed := tset 0 q.owed h.vc.toNat (tget 0 q.owed h.vc.toNat + c) }
      let flits := 1 + (d.length - 224 + 239) / 240
      (w.w0.toNat % 16 = 2 → s.farAsk n k = none → exec (.getData port h w d) s = .next (seen flits)) ∧
      (w.w0.toNat % 16 = 6 → s.farAsk n k = none → exec (.ack port h w) s = .next (seen 1)) ∧
      (∀ o x r, s.farAsk n k = some (o, x, r) →
        (w.w0.toNat % 16 = 2 → o.write = false → exec (.getData port h w d) s =
          .next (((seen flits).inject .dat (.port p) [o.who] 2 x.part x.sec (.data o (d.take r.n) h.poison)).inject .rsp (.port p) [o.who] 0 x.part x.sec
            (.done o 0))) ∧
        (w.w0.toNat % 16 = 6 → exec (.ack port h w) s =
          .next ((seen 1).inject .rsp (.port p) [o.who] 0 x.part x.sec (.done o (w.w2.toNat % 256)))))) ∧
    (s.alive = true → ∀ o x r dev tb off, s.farAsk n k = some (o, x, r) → r.place = .remote dev tb off →
      let logged := s.log (srcBench n) 0x16 x.part (BitVec.ofNat 32 dev) (BitVec.ofNat 32 k) (BitVec.ofNat 32 (x.mop o.write))
      let fails := (logged.failRun n k o.write o.run 4).advance n
      (x.mop o.write < 2 → x.tries = 0 →
        (∀ t, (logged.modXfer n k fun x => { x with tries := 1 }).routeOut (farMsg n x o.write r dev tb off) none = some t →
          exec (.msgTimeout b tag) s = .next t) ∧
        (s.nextHop dev s.dev.id.toNat = none → exec (.msgTimeout b tag) s = .next fails)) ∧
      (2 ≤ x.mop o.write ∨ x.tries ≠ 0 → exec (.msgTimeout b tag) s = .next fails))

/-- Descriptors, transfers and their completion: DESCRIPTOR_FETCH of the only stream: a first descriptor below bank 15 that fails
step 1 of the validation ends the stream, its tag completes with status 5, STREAM_INVALID names RANGE, the descriptor's
address and the tag, and 16 cycles are charged to Remote; a later descriptor of the burst that passes every step, between
tensors whose descriptors the stream has, comes into force with its units. TRANSFER_ISSUE of the only stream, with no transfer
in flight and a piece of whole bytes below bank 15 from the bench's drawer to the bench's drawer in front of other pieces,
moves those bytes, changes no other byte of the drawer, and leaves a complete transfer under the stream's tag and the other
pieces to issue. TRANSFER_COMPLETE of a complete message that is alone completes its tag with its status, 1 when its data
carried poison; the last transfer of a stream, under the stream's own tag, completes that tag and ends the stream. (R285,
R295, R297, R304, R306, R308, R310, R312, R323, R350, R418) -/
def Obligations.StreamEngine : Prop :=
  ∀ (s : State) (b : Bench7) (tag : BitVec 6),
    let n := b.toNat
    let v := s.bench n
    let alone (st : Stream) : Prop := v.streams = [st] ∧ ∀ e ∈ s.benches, ∀ o ∈ e.2.streams, o.born = st.born
    let ended (t : State) (k status : Nat) : Prop := (t.bench n).streams = [] ∧ (t.bench n).xfers = [] ∧ (t.bench n).tags.isFree k = true ∧
      (t.bench n).drawer = v.drawer ∧ (v.tagTask k = true → (t.bench n).tags.stat k = status)
    s.alive = true → v.ecc = [] → s.glb.wipe = none →
    (s.usable n = true → ∀ st, alone st → v.xfers = [] → st.desc = none → st.fresh = true → st.burst = [] → st.slots = [] → st.taken = [] →
      st.cut = false → st.fail = none → st.nextDesc + 64 ≤ 0x1E0000 → (SDesc.mk (v.drawer.getBytes st.nextDesc 64)).step1 = true →
      ∃ t rest, exec (.descriptorFetch b) s = .next t ∧ ended t st.tag 5 ∧
        t.reports = s.reports ++ [{ source := srcBench n, kind := .log 0x11 3 (BitVec.ofNat 32 st.nextDesc) (BitVec.ofNat 32 st.tag) (some st.part) }] ++ rest ∧
        (t.bench n).splitUsed = (v.splitUsed.1, v.splitUsed.2.1, v.splitUsed.2.2 + 16)) ∧
    (s.usable n = true → ∀ st d rest x y, alone st → v.xfers = [] → st.desc = none → st.fresh = false → st.remain ≠ 0 → st.burst = d :: rest → d.length = 64 →
      st.work = [] → st.slots = [] → st.taken = [] → st.cut = false → st.fail = none → st.nextDesc + 64 ≤ 0x1E0000 →
      let a : SDesc := ⟨d⟩
      a.op < 4 → a.step1 = false → a.step2 = false → st.prevTd.find? (fun e => e.1 = a.src) = some (a.src, x) →
      st.prevTd.find? (fun e => e.1 = a.dst) = some (a.dst, y) → (TDesc.mk x).useOk s.dev.epoch st.part = true → (TDesc.mk y).useOk s.dev.epoch st.part = true →
      s.checkStream n st.part a ⟨x⟩ ⟨y⟩ = none → a.units ≠ 0 → (a.tiled = true → (TDesc.mk x).count ≠ 0 ∧ (TDesc.mk y).count ≠ 0) →
      ∃ t z, exec (.descriptorFetch b) s = .next t ∧ (t.bench n).streams = [z] ∧ z.desc = some (d, x, y) ∧ z.unit = 0 ∧ z.units = a.units ∧
        z.tag = st.tag ∧ z.remain = st.remain - 1 ∧ z.nextDesc = st.nextDesc + 64 ∧ (t.bench n).drawer = v.drawer) ∧
    (s.usable n = true → ∀ st d p q rest from_ onto k, v.streams = [st] → v.xfers = [] → st.desc = some d → st.cut = false → st.fail = none →
      st.tagUsed = false → st.poisoned = [] → st.slots = [] → st.taken = [] → p < st.unit → st.unit ≤ st.units → 0 < k → from_ + k ≤ 0x1E0000 →
      onto + k ≤ 0x1E0000 → v.splitUsed.1 < 10 ^ 6 → v.splitUsed.2.1 < 10 ^ 6 → v.splitUsed.2.2 < 10 ^ 6 →
      st.work = .copy p (some { place := .drawer n from_, bit := 0 }) (some { place := .drawer n onto, bit := 0 }) (8 * k) :: q :: rest →
      ∃ t, exec (.transferIssue b) s = .next t ∧
        (∀ i, i < k → (t.bench n).drawer.get (onto + i) = v.drawer.get (from_ + i)) ∧
        (∀ a, a < onto ∨ onto + k ≤ a → (t.bench n).drawer.get a = v.drawer.get a) ∧ (t.bench n).lastIssued = st.id ∧
        (∃ x, (t.bench n).xfers = [x] ∧ x.tag = st.tag ∧ x.stream = some st.id ∧ x.stage = .complete ∧ x.status = 0) ∧
        (∃ y, (t.bench n).streams = [y] ∧ y.id = st.id ∧ y.tag = st.tag ∧ y.work = q :: rest ∧ y.tagUsed = true)) ∧
    (∀ x, v.xfers = [x] → v.msgQ = [] → x.tag = tag.toNat → x.stage = .complete → x.stream = none → x.parent = none → x.worst = none →
      let status := if x.status < 2 ∧ x.poison = true then 1 else x.status
      exec (.transferComplete b tag) s =
        .next ((s.modBench n fun v => { v with xfers := [] }).completeTag n tag.toNat status (decide (status = 1)))) ∧
    (∀ x st, v.xfers = [x] → v.msgQ = [] → x.tag = tag.toNat → x.stage = .complete → x.stream = some st.id → x.status = 0 → x.poison = false →
      v.streams = [st] → st.tag = tag.toNat → st.desc = none → st.fresh = false → st.remain = 0 → st.work = [] → st.slots = [] → st.taken = [] →
      st.cut = false → st.fail = none → ∃ t, exec (.transferComplete b tag) s = .next t ∧ ended t tag.toNat (b2n st.poison))

/-- Answers of the host: data, acknowledgements and snoops: RD_DATA for a run of a bench sends its bytes on DAT and its end on RSP
to the bench, counts the energy of the bytes, returns the header credit and leaves the module no request under that tag; for
missing lines of the Veneer cache it sends the lines to their slice. A refused one sends the end with status 3, sets VALID of
TEN_FAULT_INFO and the FENCE cause, and changes no drawer. WR_ACK of a run of a bench puts its bytes in host memory, changes
no other byte there, and sends the end with status 0, or 1 for poison; a refusal sends status 3 and leaves host memory. WR_ACK
of an interrupt message puts its word in host memory, and the next message may leave. After SNP_INV no way of the Veneer cache
holds the line, with no error in its memories every other set keeps its lines, and RXSEQ of the module has advanced. (R318,
R342, R345, R383, R453, R473, R479, R480, R485, R486, R605) -/
def Obligations.HostAnswers : Prop :=
  ∀ (s : State) (m : Module2) (tag : BitVec 12) (poison : Bool) (data : List Byte) (refused : Bool) (addr : BitVec 52),
    let k := m.toNat
    let h := s.hpp k
    let gone (t : State) : Prop := ∀ r ∈ (t.hpp k).reqs, r.sent = true → r.tag ≠ tag.toNat
    let told (t : State) (o : Ask) (status : Nat) : Prop := ∃ g ∈ t.noc.rsp, g.body = .done o status ∧ g.dst = [o.who] ∧ g.src = .hpp k
    s.alive = true → h.works = true →
    (∀ r o, h.req? tag.toNat false = some r → r.tag = tag.toNat → (∀ q ∈ h.reqs, q.sent = true) →
      let left : State := s.modHpp k fun h => { h with
        reqs := h.reqs.filter fun q => !(q.sent && q.tag = tag.toNat), used := h.used - 1, rxSeq := h.rxSeq + 1 }
      let paid : State := left.modTen r.part fun t => { t with energyFj := t.energyFj + 2800 * data.length }
      (r.use = .run o → ∀ b x q, s.askRun o = some (b, x, q) → (∀ u va c, x.piece ≠ some (.warm u va c)) →
        exec (.rdData m tag false poison data) s = .next
          ((((if s.metered o then left else paid).inject .dat (.hpp k) [o.who] 0 r.part x.sec (.data o (data.take r.len) poison)).inject .rsp (.hpp k) [o.who] 0
            r.part x.sec (.done o 0)).advanceAll)) ∧
      (r.use = .run o → ∀ b x q, s.askRun o = some (b, x, q) → ∃ t, exec (.rdData m tag true poison data) s = .next t ∧ gone t ∧ told t o 3 ∧
        (t.ten x.part).faultInfo.getLsbD 31 = true ∧ (t.ten x.part).irqStatus.getLsbD 2 = true) ∧
      (r.use = .fill o → ∀ l, (s.veneer.looks.find? fun l => l.o = o) = some l →
        exec (.rdData m tag false poison data) s = .next ((paid.inject .dat (.hpp k) [.slice (sliceOf (l.pa / 128))] 0 r.part false
          (.fill o (l.fills.flatMap fun f => (data.drop (128 * f.1 - r.pa)).take 128) poison)).advanceAll))) ∧
    (∀ r o, h.req? tag.toNat true = some r → r.use = .run o → ∃ t, exec (.wrAck m tag refused) s = .next t ∧
      told t o (if refused then 3 else if r.poison then 1 else 0) ∧ (∀ b, (t.bench b).drawer = (s.bench b).drawer) ∧
      (refused = true → t.host = s.host) ∧
      (refused = false → (∀ j, j < r.data.length → t.host.mem.get (r.pa + j) = r.data.getD j 0) ∧
        ∀ a, a < r.pa ∨ r.pa + r.data.length ≤ a → t.host.mem.get a = s.host.mem.get a)) ∧
    (∀ r p, h.req? tag.toNat true = some r → r.use = .irq p → (s.ten p).irqAgain = false →
      ∃ t, exec (.wrAck m tag false) s = .next t ∧ (t.ten p).irqSent = false ∧
        ∀ j, j < r.data.length → t.host.mem.get (r.pa + j) = r.data.getD j 0) ∧
    (let l := addr.toNat / 128
      ∃ t, exec (.snpInv m tag addr) s = .next t ∧ (t.hpp k).rxSeq = h.rxSeq + 1 ∧ (t.hpp k).txSeq = h.txSeq + 1 ∧
        (∀ w, w < 16 → ∀ e, tfind t.veneer.lines (vkey (fullSet l) w) = some e → e.tag ≠ tagOf l) ∧
        (s.veneer.ecc = [] → ∀ e, e / 16 ≠ fullSet l → tfind t.veneer.lines e = tfind s.veneer.lines e))

/-- Trainings, replays and the loss of a host module: A module that ends its first training is up; a failed training counts, and
the third in a row marks the module down, which is logged. HPP_RETRAIN on a line whose group still has its spare uses the
spare, and in a group without one marks the module down; HPP_TIMEOUT retrains and replays from the frame after the last
acknowledged one. A module marked down loses its requests, and a run that waited for one ends with status 4. HPP_FRAME with a
bad CRC owes the host a NAK; with a good one it takes the acknowledgement, returns the credits, replays on a NAK, and sends a
request that waited for a credit. (R450, R454, R483, R484, R487, R661) -/
def Obligations.HostModules : Prop :=
  ∀ (s : State) (m : Module2) (line : BitVec 9) (ok : Bool) (f : HppCtl),
    let k := m.toNat
    let h := s.hpp k
    let fell (h : Hpp) : Hpp := { h with down := true, up := false, reqs := [], used := 0 }
    let quiet := h.reqs = [] ∧ ∀ j, (s.bench j).xfers = []
    let lost (t : State) : State := t.logAll (srcModule k) 0x31 (BitVec.ofNat 32 k) 0 0 4
    (s.clocked = true → s.dev.phase ≠ .fuses → h.up = false → h.down = false →
      exec (.hppTrained m true) s = .next (s.modHpp k fun h => { h with fails := 0, up := true }) ∧
      (h.fails < 2 → exec (.hppTrained m false) s = .next (s.modHpp k fun h => { h with fails := h.fails + 1 })) ∧
      (2 ≤ h.fails → quiet → exec (.hppTrained m false) s = .next (lost (s.modHpp k fun h => { fell h with fails := h.fails + 1 })))) ∧
    (s.alive = true → h.works = true →
      (line.toNat / 32 ∈ h.spares → quiet → exec (.hppRetrain m line ok) s = .next (lost (s.modHpp k fell))) ∧
      (line.toNat / 32 ∉ h.spares → exec (.hppRetrain m line true) s = .next ((s.modHpp k fun h =>
        { h with spares := h.spares ++ [line.toNat / 32], fails := 0, up := true }).logAll (srcModule k) 0x30
          (BitVec.ofNat 32 k) (BitVec.ofNat 32 line.toNat) 0)) ∧
      (line.toNat / 32 ∉ h.spares → h.fails < 2 →
        exec (.hppRetrain m line false) s = .next (s.modHpp k fun h => { h with fails := h.fails + 1 })) ∧
      (h.reqs ≠ [] →
        exec (.hppTimeout m true) s = .next (s.modHpp k fun h => { h with fails := 0, up := true, resend := some (h.acked + 1) }) ∧
        (h.fails < 2 → exec (.hppTimeout m false) s = .next (s.modHpp k fun h => { h with fails := h.fails + 1 }))) ∧
      (∀ r o, h.reqs = [r] → r.use = .run o → 2 ≤ h.fails →
        ∃ t, exec (.hppTimeout m false) s = .next t ∧ (t.hpp k).down = true ∧ (t.hpp k).reqs = [] ∧
          ∃ g ∈ t.noc.rsp, g.body = .done o 4 ∧ g.dst = [o.who]) ∧
      (f.crcOk = false → exec (.hppFrame m f) s = .next (s.modHpp k fun h => { h with nakOwed := true })) ∧
      (f.crcOk = true →
        let heard (h : Hpp) : Hpp := { h with
          acked := f.ackseq, nakOwed := false, used := h.used - f.credit.toNat, resend := if f.nak then some (f.ackseq + 1) else none }
        ((∀ r ∈ h.reqs, r.sent = true) → exec (.hppFrame m f) s = .next (s.modHpp k heard)) ∧
        (∀ r, h.reqs = [r] → r.sent = false → h.used - f.credit.toNat < 512 → h.nextTag < 4096 → exec (.hppFrame m f) s = .next (s.modHpp k fun h =>
          let h := heard h
          { h with reqs := [{ r with tag := h.nextTag, sent := true }], nextTag := (h.nextTag + 1) % 4096, used := h.used + 1, txSeq := h.txSeq + 1 }))))

/-- Writes over the Control Bus, the tick registers and the pins: REGISTER_WRITE is answered by nothing without power, by BUSY
while the Control Bus does not serve, then by the parity error, then by DECODE for an address outside the map or not word
aligned, each with no effect; a served write of a read-only register changes nothing but the response, GLB_RESET_CAUSE and
GLB_FAULT_SUMMARY lose the bits written 1, GLB_PART_SEL takes its fields, and GLB_THERM_STATUS takes ALERT_T from 60 to 105
only and loses TRIP and ALERT written 1. A read of GLB_TICK_COUNT_LO answers with the low word of the count and latches the
high one. GLB_TICK_CTL always takes PLAN_EN; once locked nothing else; before, the rank, a legal length and a legal role, and
with LOCK and a role the device enters ACQUIRE; a new length empties every plan. GLB_PINMUX with PINLOCK changes nothing, and
without it parks the pins whose function changes; PARK_END ends a pin's parking. (R36, R37, R455, R457, R489, R492, R493,
R502, R504, R506, R507, R667) -/
def Obligations.GlobalRegisterWrites : Prop :=
  ∀ (s : State) (addr v : Word) (parity : Bool) (pin : BitVec 3),
    let a := addr.toNat
    let tells (t : State) (code : Nat) : Out := .next { t with glb := { t.glb with resp := (code, 0) } }
    let served (t : State) : Out := tells t 0
    let known := a % 4 = 0 ∧ (a ≤ 0x5C ∨ (0x1000 ≤ a ∧ a < 0x9000 ∧ a % 0x1000 ≤ 0x9C))
    let k := s.stroke
    (s.dev.phase = .unpowered → exec (.registerWrite addr v parity) s = .next s) ∧
    (s.dev.phase ≠ .unpowered → s.cbOpen = false → exec (.registerWrite addr v parity) s = tells s 3) ∧
    (s.clocked = true → exec (.parkEnd pin) s =
      .next { s with glb := { s.glb with parking := s.glb.parking.filter fun n => decide (n ≠ pin.toNat) } }) ∧
    (s.cbOpen = true →
      (parity = false → exec (.registerWrite addr v parity) s = tells s 1) ∧
      (parity = true → ¬ known → exec (.registerWrite addr v parity) s = tells s 2) ∧
      (parity = true → a ∈ [0x00, 0x04, 0x08, 0x0C, 0x10, 0x14, 0x18, 0x1C, 0x24, 0x34, 0x38, 0x4C] →
        exec (.registerWrite addr v parity) s = served s) ∧
      exec (.registerWrite 0x2C v true) s = served { s with glb := { s.glb with resetCause := s.glb.resetCause &&& ~~~(v.extractLsb' 0 8) } } ∧
      exec (.registerWrite 0x50 v true) s = served { s with dev := { s.dev with faults := s.dev.faults &&& ~~~v } } ∧
      exec (.registerWrite 0x3C v true) s = served { s with glb := { s.glb with
        selPort := v.toNat / 2 ^ 12 % 16, selItem := v.toNat / 2 ^ 8 % 16, selPart := v.toNat % 8 } } ∧
      exec (.registerWrite 0x48 v true) s = served { s with glb := { s.glb with
        alertT := if 60 ≤ v.toNat / 2 ^ 24 ∧ v.toNat / 2 ^ 24 ≤ 105 then v.toNat / 2 ^ 24 else s.glb.alertT
        trip := s.glb.trip && !v.getLsbD 18, alert := s.glb.alert && !v.getLsbD 17 } } ∧
      exec .glbTickCountLo s = .next { s with
        stroke := { k with latch := k.count.extractLsb' 32 32 }, glb := { s.glb with resp := (0, k.count.extractLsb' 0 32) } } ∧
      (k.lock = true → exec (.glbTickCtl v) s = served { s with stroke := { k with planEn := v.getLsbD 18 } }) ∧
      (k.lock = false → ∃ t, exec (.glbTickCtl v) s = .next t ∧ t.stroke.planEn = v.getLsbD 18 ∧ t.stroke.lock = v.getLsbD 31 ∧
        t.stroke.rank = v.extractLsb' 6 12 ∧ t.stroke.role = (if v.extractLsb' 4 2 = 3 then k.role else v.extractLsb' 4 2) ∧
        t.stroke.len = (if 11 ≤ v.toNat % 16 then v.toNat % 16 else k.len) ∧
        t.stroke.state = (if v.getLsbD 31 = true ∧ t.stroke.role ≠ 0 then 1 else k.state) ∧ t.stroke.count = k.count ∧
        (∀ p, p < 8 → (t.ten p).plan = (if t.stroke.len = k.len then (s.ten p).plan else [])) ∧ t.benches = s.benches) ∧
      (s.glb.pinlock = true → exec (.glbPinmux v) s = served s) ∧
      (s.glb.pinlock = false → ∃ t, exec (.glbPinmux v) s = .next t ∧ t.glb.pinmux = v ∧ t.glb.resp = (0, 0) ∧
        ∀ n, n < 8 → (n ∈ t.glb.parking ↔ n ∈ s.glb.parking ∨ s.glb.pinmux.toNat / 2 ^ (4 * n) % 8 ≠ v.toNat / 2 ^ (4 * n) % 8)))

/-- Writes of GLB_PART_CFG: While the Control Bus serves and GLB_PART_SEL selects partition p: a write of BENCHn grants each named
bench that is usable, in no partition and neither leaving nor being cleared, takes every bench not named out of the mask, and
changes no other bench of the mask and no other partition's mask; a bench taken out with no task, transfer or stream begins
its clear with an empty mailbox and patch buffer, and any other has a pending Foreman interrupt and its tasks cancelled at the
second boundary. SLOTS writes the selected half of the port's slots, but for slots of other partitions. WAYS_ALLOWED takes the
ways, and ways no longer allowed are given up with their lines. CONTROL takes ENABLE, and SEC_ALLOW while secure mode is
available; clearing ENABLE begins the cancellation of every command. (R343, R344, R511, R512, R513, R514, R515, R516, R543,
R572) -/
def Obligations.PartitionConfiguration : Prop :=
  ∀ (s : State) (v : Word),
    let p := s.glb.selPart
    let item := s.glb.selItem
    let port := s.glb.selPort
    let t0 := s.ten p
    let served (t : State) : Out := .next { t with glb := { t.glb with resp := (0, 0) } }
    let low : BitVec 16 := v.extractLsb' 0 16
    let free (b : Nat) : Prop := s.usable b = true ∧ (∀ q, q < 8 → (s.ten q).mask.getLsbD b = false) ∧
      (s.bench b).clearing = false ∧ (s.bench b).leaving = none
    let busy (b : Nat) : Prop := (∃ k, k < 4 ∧ ((s.bench b).ctx k).status ≠ .empty) ∨ (s.bench b).xfers ≠ [] ∨ (s.bench b).streams ≠ []
    s.cbOpen = true → p < 8 →
    (2 ≤ item → item ≤ 5 → ∃ t, exec (.partCfgBench v) s = .next t ∧
      (∀ b, b / 32 = item - 2 →
        ((t.ten p).mask.getLsbD b = true ↔ v.getLsbD (b % 32) = true ∧ (t0.mask.getLsbD b = true ∨ free b)) ∧
        (t0.mask.getLsbD b = true → v.getLsbD (b % 32) = false →
          (¬ busy b → (t.bench b).clearing = true ∧ (t.bench b).mailbox = [] ∧ (t.bench b).patch = []) ∧
          (busy b → (t.bench b).leaving = some p ∧ (t.bench b).cancelIn = some 2 ∧ (t.bench b).jipend.getLsbD 7 = true))) ∧
      (∀ b, b < 128 → b / 32 ≠ item - 2 → (t.ten p).mask.getLsbD b = t0.mask.getLsbD b) ∧
      (∀ q, q ≠ p → (t.ten q).mask = (s.ten q).mask) ∧ (∀ b, (t.bench b).drawer = (s.bench b).drawer)) ∧
    (6 ≤ item → item ≤ 7 → ∃ x : BitVec 64,
      exec (.partCfgSlots v) s = served (s.modTen p fun t => { t with slots := tset 0 t.slots port x }) ∧
      ∀ i, i < 64 → (x.getLsbD i = true ↔ if i / 32 = item - 6
        then v.getLsbD (i % 32) = true ∧ ∀ q, q < 8 → q ≠ p → (tget 0 (s.ten q).slots port).getLsbD i = false
        else (tget 0 t0.slots port).getLsbD i = true)) ∧
    (item = 1 → t0.ways &&& ~~~low = 0 → exec (.partCfgWaysAllowed v) s = served (s.modTen p fun t => { t with waysAllowed := low })) ∧
    (item = 1 → t0.ways &&& ~~~low ≠ 0 → ∃ t, exec (.partCfgWaysAllowed v) s = .next t ∧ (t.ten p).waysAllowed = low ∧
      (t.ten p).ways = t0.ways &&& low ∧ (t.ten p).waysBusy = true ∧
      (∀ e ∈ t.veneer.lines, t0.ways.getLsbD (e.1 % 16) = false ∧ e ∈ s.veneer.lines)) ∧
    (item = 0 →
      let secAllow := if s.secureOk then v.getLsbD 1 else t0.secAllow
      (t0.enable = false ∨ v.getLsbD 0 = true →
        exec (.partCfgControl v) s = served (s.modTen p fun t => { t with enable := v.getLsbD 0, secAllow := secAllow })) ∧
      (t0.enable = true → v.getLsbD 0 = false → ∃ t, exec (.partCfgControl v) s = .next t ∧ (t.ten p).enable = false ∧
        (t.ten p).secAllow = secAllow ∧ (t.ten p).cancel = some (t0.cancel.getD 2) ∧ (∀ c ∈ (t.ten p).cmds, c.cancelled = true) ∧
        (∀ q, q ≠ p → t.ten q = s.ten q)))

/-- A tenant window: its enables, racks and interrupts: While the Control Bus serves, each write answers with the effect on its
partition alone: CANCEL starts the cancellation of every command and interrupts the benches that hold tasks; RESUME ends a
halt; CMD_EN set over legal racks enables them with all counts 0, over an illegal one leaves it clear with RACK, ALIGN or
RANGE in CFGERR; EVLOG_EN likewise; either cleared is clear. DOORBELL takes a tail that moves at most the rack's size, else
CFGERR is RANGE; it wakes a resting device. TEN_CPL_HEAD takes a head up to the tail, else CFGERR is RANGE. TEN_IRQ_STATUS
loses the causes written 1 and TEN_IRQ_MASK takes the mask; a cause that is then live sends the interrupt message, or is
remembered while one is in flight. (R475, R519, R520, R528, R534, R572, R574, R606, R609, R478, R479, R480) -/
def Obligations.WindowControlWrites : Prop :=
  ∀ (s : State) (part : Part3) (v : Word),
    let p := part.toNat
    let t0 := s.ten p
    let gives (i : Instr) (f : Tenant → Tenant) : Prop := ∃ t, exec i s = .next t ∧ t.ten p = f t0 ∧ (∀ q, q ≠ p → t.ten q = s.ten q) ∧
      { t with tens := s.tens, glb := { t.glb with resp := s.glb.resp } } = s ∧ t.glb.resp = (0, 0)
    let sized (n : Nat) : Prop := 3 ≤ n ∧ n ≤ 16
    let within (base size unit : Nat) : Prop := base + 2 ^ size * unit ≤ 2 ^ 52
    let moves (f : Tenant → Tenant) (i : Instr) : Prop :=
      let u := s.modTen p f
      ((f t0).irqLive = 0 → gives i f) ∧
      ((f t0).irqLive ≠ 0 → (f t0).irqSent = true → gives i fun t => { f t with irqAgain := true }) ∧
      ((f t0).irqLive ≠ 0 → (f t0).irqSent = false → ∀ m pa, u.foremanModule = some m → t0.irqAddr % 4 = 0 →
        (u.translate m p t0.irqAddr .write).2 = .ok pa → ∃ t, exec i s = .next t ∧ (t.ten p).irqSent = true ∧
          ∃ r ∈ (t.hpp m).reqs, r.use = .irq p ∧ r.pa = pa ∧ r.write = true ∧ r.data = leBytes 4 t0.irqData.toNat)
    s.cbOpen = true →
    (∃ t, exec (.cancel part) s = .next t ∧
      t.ten p = { t0 with cancel := some (t0.cancel.getD 2), cancelTo := t0.cmdHead.toNat, cmds := t0.cmds.map fun c => { c with cancelled := true } } ∧
      (∀ b, b < 128 → t0.mask.getLsbD b = true → (∃ k, k < 4 ∧ ((s.bench b).ctx k).status ≠ .empty) → (t.bench b).jipend.getLsbD 7 = true) ∧
      ∀ q, q ≠ p → t.ten q = s.ten q) ∧
    gives (.resume part) (fun t => { t with halted := false, haltWhy := 0 }) ∧
    gives (.cmdDisable part) (fun t => { t with cmdEn := false }) ∧ gives (.evlogDisable part) (fun t => { t with evlogEn := false }) ∧
    (t0.cmdEn = true → gives (.cmdEnable part) fun t => t) ∧
    (t0.cmdEn = false →
      let sizes := sized t0.cmdSize ∧ sized t0.cplSize
      let aligned := t0.cmdBase % 64 = 0 ∧ t0.cplBase % 16 = 0
      let inside := within t0.cmdBase t0.cmdSize 64 ∧ within t0.cplBase t0.cplSize 16
      (¬ sizes → gives (.cmdEnable part) fun t => { t with cfgerr := 4 }) ∧
      (sizes → ¬ aligned → gives (.cmdEnable part) fun t => { t with cfgerr := 1 }) ∧
      (sizes → aligned → ¬ inside → gives (.cmdEnable part) fun t => { t with cfgerr := 3 }) ∧
      (sizes → aligned → inside → gives (.cmdEnable part) fun t =>
        { t with cmdEn := true, cmdHead := 0, cmdTail := 0, cplHead := 0, cplTail := 0 })) ∧
    (t0.evlogEn = true → gives (.evlogEnable part) fun t => t) ∧
    (t0.evlogEn = false →
      (¬ sized t0.evSize → gives (.evlogEnable part) fun t => { t with cfgerr := 4 }) ∧
      (sized t0.evSize → t0.evBase % 32 ≠ 0 → gives (.evlogEnable part) fun t => { t with cfgerr := 1 }) ∧
      (sized t0.evSize → t0.evBase % 32 = 0 → ¬ within t0.evBase t0.evSize 32 → gives (.evlogEnable part) fun t => { t with cfgerr := 3 }) ∧
      (sized t0.evSize → t0.evBase % 32 = 0 → within t0.evBase t0.evSize 32 → s.glb.late = [] →
        gives (.evlogEnable part) fun t => { t with evlogEn := true, evHead := 0 })) ∧
    (let valid := t0.cmdEn = true ∧ (v - t0.cmdTail).toNat ≤ 2 ^ t0.cmdSize ∧ (v - t0.cmdHead).toNat ≤ 2 ^ t0.cmdSize;
      (v = t0.cmdTail → gives (.doorbell part v) fun t => t) ∧
      (v ≠ t0.cmdTail → ¬ valid → gives (.doorbell part v) fun t => { t with cfgerr := 3 }) ∧
      (v ≠ t0.cmdTail → valid → s.dev.rest = .awake → gives (.doorbell part v) fun t => { t with cmdTail := v }) ∧
      (v ≠ t0.cmdTail → valid → s.dev.rest = .resting → ∃ t, exec (.doorbell part v) s = .next t ∧ (t.ten p).cmdTail = v ∧
        t.dev.rest = .waking ∧ t.dev.wakeSrc = 2 ∧ t.dev.wakePart = p)) ∧
    ((v - t0.cplHead).toNat ≤ (t0.cplTail - t0.cplHead).toNat → gives (.tenCplHead part v) fun t => { t with cplHead := v }) ∧
    ((t0.cplTail - t0.cplHead).toNat < (v - t0.cplHead).toNat → gives (.tenCplHead part v) fun t => { t with cfgerr := 3 }) ∧
    moves (fun t => { t with irqStatus := t.irqStatus &&& ~~~(v.extractLsb' 0 5) }) (.tenIrqStatus part v) ∧
    moves (fun t => { t with irqMask := v.extractLsb' 0 5 }) (.tenIrqMask part v)

/-- A tenant window: translation, Veneer ways and dowels: While the Control Bus serves: TEN_XLAT_CTL takes EN, and SPAN from 30 to
52 while EN is 0; clearing EN, and TEN_XLAT_INVAL of all, drop every translation of the partition in every module and of no
other, and TEN_XLAT_INVAL of a region drops those of its 2 MiB region alone; each sets INVAL_BUSY, which XLAT_INVAL_DONE
clears once no request translated before is outstanding. TEN_VENEER_WAYS gives the partition each way written 1 that it may
have and no other partition has, and invalidates the lines of the ways it had or has. TEN_DOWEL_DATA under ADD adds to the
selected dowel's count, under SETT writes its target, and under CLEAR zeroes its count and drops its waiters; a dowel that is
then reached sets JIPEND.DOWEL of every local waiter and drops them; no other dowel changes, and a row whose OP is not
selected changes nothing. (R343, R344, R460, R468, R525, R526, R553, R554, R555, R583) -/
def Obligations.WindowTranslationAndDowels : Prop :=
  ∀ (s : State) (part : Part3) (v : Word),
    let p := part.toNat
    let t0 := s.ten p
    let span := v.toNat / 2 ^ 8 % 64
    let ctl (t : State) : Prop := (t.ten p).xen = v.getLsbD 0 ∧
      (t.ten p).xspan = (if t0.xen = false ∧ 30 ≤ span ∧ span ≤ 52 then span else t0.xspan) ∧ t.glb.resp = (0, 0)
    let drops (t : State) (these : Nat × XEntry → Prop) : Prop := (t.ten p).invBusy = true ∧ ∀ m, m < 4 → ∀ e,
      e ∈ (t.hpp m).xlat ↔ e ∈ (s.hpp m).xlat ∧ ¬ (e.1 / 128 = p ∧ these e)
    let i := t0.dowelIdx.toNat
    let k := 32 * p + i
    let d := s.dowel k
    let lands (c : Instr) (d' : Dowel) : Prop := (∀ r ∈ t0.remote, r.2.2 ≠ i) → ∃ t, exec c s = .next t ∧
      (t.dowel k).count = d'.count ∧ (t.dowel k).target = d'.target ∧ (∀ j, j ≠ k → t.dowel j = s.dowel j) ∧
      ((d'.count - d'.target).getLsbD 31 = false → (t.dowel k).waits = 0 ∧
        ∀ b, b < 128 → d'.waits.getLsbD b = true → (t.bench b).jipend.getLsbD 1 = true) ∧
      ((d'.count - d'.target).getLsbD 31 = true → (t.dowel k).waits = d'.waits ∧ t.benches = s.benches)
    (s.alive = true → t0.invBusy = true →
      ((∀ m, m < 4 → ∀ r ∈ (s.hpp m).reqs, r.part = p → r.old = false) →
        exec (.xlatInvalDone part) s = .next (s.modTen p fun t => { t with invBusy := false })) ∧
      ((∃ m, m < 4 ∧ ∃ r ∈ (s.hpp m).reqs, r.part = p ∧ r.old = true) → exec (.xlatInvalDone part) s = .next s)) ∧
    (t0.dowelOp.toNat ≠ 1 → exec (.dowelDataAdd part v) s = .next s) ∧ (t0.dowelOp.toNat ≠ 2 → exec (.dowelDataTarget part v) s = .next s) ∧
    (t0.dowelOp.toNat ≠ 3 → exec (.dowelDataClear part v) s = .next s) ∧
    (s.cbOpen = true →
      (t0.xen = false ∨ v.getLsbD 0 = true → ∃ t, exec (.tenXlatCtl part v) s = .next t ∧ ctl t ∧ t.hpps = s.hpps) ∧
      (t0.xen = true → v.getLsbD 0 = false → ∃ t, exec (.tenXlatCtl part v) s = .next t ∧ ctl t ∧ drops t fun _ => True) ∧
      (∃ t, exec (.tenXlatInval part v) s = .next t ∧
        (v.getLsbD 0 = true → drops t fun _ => True) ∧ (v.getLsbD 0 = false → drops t fun e => e.2.va / 2 ^ 21 = v.toNat / 2)) ∧
      (∃ t, exec (.tenVeneerWays part v) s = .next t ∧ (t.ten p).waysBusy = true ∧
        (∀ w, w < 16 → ((t.ten p).ways.getLsbD w = true ↔ v.getLsbD w = true ∧ t0.waysAllowed.getLsbD w = true ∧
          (t0.ways.getLsbD w = true ∨ ∀ q, q < 8 → q ≠ p → (s.ten q).ways.getLsbD w = false))) ∧
        (∀ e, e ∈ t.veneer.lines ↔ e ∈ s.veneer.lines ∧ t0.ways.getLsbD (e.1 % 16) = false ∧ (t.ten p).ways.getLsbD (e.1 % 16) = false) ∧
        (∀ q, q ≠ p → t.ten q = s.ten q)) ∧
      (t0.dowelOp.toNat = 1 → lands (.dowelDataAdd part v) { d with count := d.count + v }) ∧
      (t0.dowelOp.toNat = 2 → lands (.dowelDataTarget part v) { d with target := v }) ∧
      (t0.dowelOp.toNat = 3 → ∃ t, exec (.dowelDataClear part v) s = .next t ∧ (t.dowel k).count = 0 ∧ (t.dowel k).target = d.target ∧
        (t.dowel k).waits = 0 ∧ (∀ r ∈ (t.ten p).remote, r.2.2 ≠ i) ∧ t.benches = s.benches ∧ ∀ j, j ≠ k → t.dowel j = s.dowel j))

/-- The Foreman's mailbox and its commands: While the Control Bus serves and no command runs, ADDR_LO and ADDR_HI place the
block's address; with one running they change nothing. A GO of a device that is not in Rest ends an unassigned OP with status
3. For an assigned OP that reads its block (all but POLICY_GET and LINK_STATUS) and whose block cannot be read it ends with
status 2; with the block read, LINK_CONFIG takes a legal block's identifier, enables and dimensions and ends OK, or ends
RANGE; POLICY_SET holds a legal block for the next window, logs POLICY_CHANGE and ends OK, or ends RANGE; BENCH_RETIRE of a
usable bench begins the retirement, which ends at the second boundary, with a pending Foreman interrupt; POLICY_GET, TELEMETRY
and LINK_STATUS write the policy in force, the page and the port words to the block and end OK where the write lands;
BENCH_READMIT of a bench of the fuse map that is not usable returns it to service and writes the result, or reports the
failure that its plane run found. (R508, R509, R510, R612, R613, R614, R615, R617, R423, R424, R592) -/
def Obligations.ForemanMailbox : Prop :=
  ∀ (s : State) (v : Word) (fail : Option PlaneFail),
    let g := s.glb
    let g0 := s.foreman
    let at_ (x : Nat) : Out := .next { s with glb := { g with mboxAddr := x, resp := (0, 0) } }
    let step_ := v.toNat / 2 ^ 30
    let op := v.toNat % 256
    let p := v.toNat / 2 ^ 8 % 8
    let u : State := { s with glb := { g with mboxBusy := true, mboxDone := false, mboxStatus := 0, mboxErr := 0, mboxOp := op } }
    let ended (t : State) (status err : Nat) : Prop :=
      t.glb.mboxBusy = false ∧ t.glb.mboxDone = true ∧ t.glb.mboxStatus = status ∧ t.glb.mboxErr = err ∧ t.glb.mboxOp = op ∧ t.glb.resp = (0, 0)
    let run (fail : Option PlaneFail) : Instr := match op with
      | 1 => .linkConfig v | 2 => .policySet v | 3 => .policyGet v | 4 => .telemetry v | 5 => .linkStatus v
      | 6 => .benchRetire v | 7 => .benchReadmit v fail | _ => .unknownOp v
    s.cbOpen = true →
    (step_ = 1 → g.mboxBusy = false → exec (.addrLo v) s = at_ (g.mboxAddr / 2 ^ 32 * 2 ^ 32 + v.toNat % 2 ^ 26 * 64)) ∧
    (step_ = 2 → g.mboxBusy = false → exec (.addrHi v) s = at_ (v.toNat % 2 ^ 20 * 2 ^ 32 + g.mboxAddr % 2 ^ 32)) ∧
    (g.mboxBusy = true → (step_ = 1 → exec (.addrLo v) s = at_ g.mboxAddr) ∧ (step_ = 2 → exec (.addrHi v) s = at_ g.mboxAddr)) ∧
    (step_ = 3 → g.mboxBusy = false → v.toNat / 2 ^ 11 % 2 ^ 19 = 0 → s.dev.rest = .awake → g.mbist.busy = false →
      (op = 0 ∨ 7 < op → ∃ t, exec (run fail) s = .next t ∧ ended t 3 0) ∧
      (op = 3 → ∃ t, exec (run fail) s = .next t ∧
        ended t (if (u.foremanWrite p g.mboxAddr (leBytes 4 g0.policy0.toNat ++ leBytes 4 g0.policy1.toNat ++ List.replicate 56 0)).2 then 0 else 2) 0) ∧
      (op = 5 → ∃ t, exec (run fail) s = .next t ∧ (ended t 0 0 ∨ ended t 2 0) ∧
        ∀ q, q < 16 → (t.port q).replays = 0 ∧ (t.port q).uncor = 0) ∧
      (1 ≤ op → op ≤ 7 → op ≠ 3 → op ≠ 5 →
        ((u.foremanClean p g.mboxAddr 64).2 = none → ∃ t, exec (run fail) s = .next t ∧ ended t 2 0) ∧
        (∀ w blk, u.foremanClean p g.mboxAddr 64 = (w, some blk) →
          let word (i : Nat) : Nat := leNat ((blk.drop (4 * i)).take 4)
          let bench := word 0 % 128
          let named := word 0 < 128 ∧ ∀ x ∈ blk.drop 4, x = 0
          let writes (off : Nat) (bytes : List Byte) (x : State) : Prop := (x.foremanWrite p (g.mboxAddr + off) bytes).2 = true
          (op = 1 → w.linkOk blk = true → ∃ t, exec (run fail) s = .next t ∧ ended t 0 0 ∧ t.dev.id.toNat = word 0 % 4096 ∧
            t.links.linken = (word 0).testBit 16 ∧ t.links.bypass = (word 0).testBit 17 ∧ t.links.porten.toNat = word 2 % 2 ^ 16) ∧
          (op = 1 → w.linkOk blk = false → ∃ t, exec (run fail) s = .next t ∧ ended t 1 3 ∧ t.links = w.links) ∧
          (let legal := 2 ≤ word 0 / 2 ^ 16 % 16 ∧ word 0 / 2 ^ 16 % 16 ≤ 10 ∧ word 0 < 2 ^ 23 ∧ 85 ≤ word 1 ∧ word 1 ≤ 104 ∧ ∀ x ∈ blk.drop 8, x = 0;
            (op = 2 → legal → ∃ t, exec (run fail) s = .next t ∧ ended t 0 0 ∧
              t.foreman.newPolicy = some (BitVec.ofNat 32 (word 0), BitVec.ofNat 32 (word 1)) ∧
              t.reports = w.reports ++ [{ source := 0x80, kind := .log 0x4A (BitVec.ofNat 32 (word 0)) (BitVec.ofNat 32 (word 1)) 0 none }]) ∧
            (op = 2 → ¬ legal → ∃ t, exec (run fail) s = .next t ∧ ended t 1 3 ∧ t.foreman = w.foreman)) ∧
          (op = 4 → word 0 ≤ 2 → (∀ x ∈ blk.drop 4, x = 0) → writes 0 (w.telemetryPage (word 0)) w → ∃ t, exec (run fail) s = .next t ∧ ended t 0 0) ∧
          (op = 4 → 2 < word 0 → ∃ t, exec (run fail) s = .next t ∧ ended t 1 3) ∧
          (op = 6 → named → w.usable bench = true → ∃ t, exec (run fail) s = .next t ∧ t.glb.mboxBusy = true ∧
            t.glb.mboxRetire = some bench ∧ (t.bench bench).retireIn = some ((w.bench bench).retireIn.getD 2) ∧ (t.bench bench).jipend.getLsbD 7 = true) ∧
          (op = 6 → ¬ named ∨ w.usable bench = false → ∃ t, exec (run fail) s = .next t ∧ ended t 1 3) ∧
          (op = 7 → named → (fuseMap w.dev.fuses).getLsbD bench = true → w.usable bench = false →
            (∃ t, exec (run none) s = .next t ∧ (ended t 0 0 ∨ ended t 2 0) ∧ t.usable bench = true ∧ (t.bench bench).planeOk = true ∧
              (t.bench bench).drawer = [] ∧ t.glb.mbist.fail = false) ∧
            (∀ f, ∃ t, exec (run (some f)) s = .next t ∧ (ended t 0 0 ∨ ended t 2 0) ∧ t.usable bench = false ∧
              t.glb.mbist.fail = true ∧ t.glb.mbist.failBench = bench)) ∧
          (op = 7 → named → (fuseMap w.dev.fuses).getLsbD bench = false ∨ w.usable bench = true →
            ∃ t, exec (run fail) s = .next t ∧ ended t 1 3))))

/-- What puts the device into reset, and what a reset keeps: SWRST with its key, RESET_N, a fall of PWROK, the Foreman's watchdog,
the loss of its majority, the monitor of a domain of the stroke reference, the NoC, the Foreman or the wipe, and a wake whose
retained supply fell each put the device into reset with its bit of GLB_RESET_CAUSE set: every bench, partition, dowel, port,
host module, register of the global block and the stroke stands at its reset value, and the reset cause, the tamper sources,
the fuses, the JTAG port and host memory are kept. SWRST without its key sets GPIO_IRQ and PINLOCK and, while no partition has
a Veneer way, COH. POWER_ON leaves POWER_ON as the only cause. The loss of all power leaves nothing but the fuses.
RESET_RELEASE begins the start-up unless the Foreman is held. CLAMP stops the device where it stands. A lane that leaves a
full majority is reported. (R498, R655, R656, R657, R620, R628, R644, R686, R352, R358, R680, R676) -/
def Obligations.ResetsAndPower : Prop :=
  ∀ (s : State) (v : Word) (lane : BitVec 2) (domain : BitVec 6) (vsram vaon : Bool),
    let resets (i : Instr) (cause : Nat) : Prop := ∃ t, exec i s = .next t ∧ t.dev.phase = .inReset ∧
      t.glb = { resetCause := s.glb.resetCause ||| BitVec.ofNat 8 (2 ^ cause) } ∧ t.tens = [] ∧ t.dowels = [] ∧ t.noc = {} ∧ t.links = {} ∧
      t.ports = [] ∧ t.hpps = [] ∧ t.stroke = {} ∧ t.foreman = {} ∧ t.boot = {} ∧ t.i3c = {} ∧ t.reports = [] ∧ t.dev.usable = 0 ∧
      t.dev.faults = 0 ∧ t.dev.clamped = false ∧ t.dev.rest = .awake ∧ t.dev.fuses = s.dev.fuses ∧ t.dev.tamper = s.dev.tamper ∧
      t.dev.epoch = s.dev.epoch + 1 ∧ t.jtag = s.jtag ∧ t.host = s.host ∧ t.pending = s.pending ∧ t.veneer.lines = [] ∧
      ∀ k, t.bench k = { stuck := (t.bench k).stuck, badFabric := (t.bench k).badFabric
                         badTranspose := (t.bench k).badTranspose, badSolver := (t.bench k).badSolver }
    let keyed := v.getLsbD 31 = true ∧ v.toNat / 2 ^ 16 % 256 = 0xD1
    let d := domain.toNat
    (s.cbOpen = true → (keyed → resets (.swrst v) 2) ∧
      (¬ keyed → exec (.swrst v) s = .next { s with glb := { s.glb with
        coh := if (∀ p ∈ allParts, (s.ten p).ways = 0) then v.getLsbD 0 else s.glb.coh
        gpioIrq := v.getLsbD 1, pinlock := s.glb.pinlock || v.getLsbD 2, resp := (0, 0) } })) ∧
    (s.dev.phase ≠ .unpowered →
      resets .resetN (if s.dev.clamped then 3 else 1) ∧ resets (.pwrokFall true) 6 ∧
      ∃ t, exec (.pwrokFall false) s = .next t ∧ t.dev.phase = .unpowered ∧ t.dev.fuses = s.dev.fuses ∧ t.glb = {} ∧ t.jtag = {} ∧
        t.dev.tamper = [] ∧ t.tens = [] ∧ t.host = s.host) ∧
    (s.dev.phase = .unpowered → ∃ t, exec .powerOn s = .next t ∧ t.dev.phase = .inReset ∧ t.glb = { resetCause := 1 } ∧ t.jtag = {} ∧
      t.dev.fuses = s.dev.fuses ∧ t.tens = [] ∧ t.stroke = {}) ∧
    (s.dev.phase = .inReset →
      (s.dev.fmHeld = false → exec .resetRelease s = .next { s with dev := { s.dev with phase := .fuses, resetLow := false } }) ∧
      (s.dev.fmHeld = true → exec .resetRelease s = .next s)) ∧
    (s.clocked = true →
      resets .foremanWatchdog 5 ∧
      exec .clamp s = .next { s with dev := { s.dev with clamped := true }, links := { s.links with closed := true } } ∧
      (s.glb.fmLanes = 7 → lane ≠ 3 → exec (.foremanLane lane) s =
        .next (({ s with glb := { s.glb with fmLanes := s.glb.fmLanes &&& ~~~(BitVec.ofNat 3 (2 ^ lane.toNat)) } } : State).logAll srcForeman 0x8C
          (BitVec.ofNat 32 lane.toNat) 0 0 8)) ∧
      (s.glb.fmLanes ∈ ([3, 5, 6] : List (BitVec 3)) → s.glb.fmLanes.getLsbD lane.toNat = true → resets (.foremanLane lane) 5) ∧
      (s.dev.rest = .waking → (vsram = false ∨ vaon = false) → resets (.restExit vsram vaon) 4) ∧
      (s.dev.phase ≠ .fuses →
        (d < 16 → (s.port d).live = false → exec (.clockMonitor domain) s = .next (s.logAll srcForeman 0x89 (BitVec.ofNat 32 d) 0 0 0x80)) ∧
        (36 ≤ d → d < 52 → s.alive = true → ∃ t, exec (.clockMonitor domain) s = .next t ∧ (t.col (d - 36)).vrcOn = false ∧
          ∀ r, r < 8 → t.usable (16 * r + (d - 36)) = false) ∧
        (d = 52 ∨ d = 53 → s.alive = true → resets (.clockMonitor domain) 7) ∧
        (d = 54 ∨ d = 55 ∨ d = 59 → resets (.clockMonitor domain) 7)))

/-- Start-up, the lifecycle, Rest and tamper: FUSE_LOAD takes the identity, the bench map and the lifecycle of a fuse array whose
CRC holds; with a wrong CRC no bench is usable and FUSE_CRC is logged. The image check selects the ROM without a flash, an
image that passes every check, and else the ROM with the reason of the first failing check; a stalled flash gives the ROM.
LIFECYCLE_ADVANCE to the next state with its key stops secure tasks and wipes bank 15, and LIFECYCLE_DONE after the wipe sets
the fuse and logs the change. GLB_POWER_CTL takes legal limits; REST = 1 requests Rest, and REST = 0 withdraws the request or
wakes the device; REST_ENTER, once the device may, rests it with an empty Veneer cache and every regulator off, its entry and
every report before it numbered, and REST_EXIT ends the wake. A tamper source seen while the device runs stops secure tasks
and wipes bank 15, and a voltage or clock source has a reset follow; while clamped it is only remembered. TAMPER_DEASSERT
clears it. (R496, R501, R503, R606, R607, R609, R610, R641, R643, R644, R660, R664) -/
def Obligations.StartUpRestAndTamper : Prop :=
  ∀ (s : State) (v sfdp m : Word) (quad : Bool) (image : List Byte) (src : TamperSrc),
    let g := s.glb
    let fuse (i : Nat) : Word := tget 0 s.dev.fuses i
    let served (t : State) : Out := .next { t with glb := { t.glb with resp := (0, 0) } }
    let crc := crc32 (((List.range 39).filter fun i => decide (i ≠ 8)).flatMap fun i => leBytes 4 (fuse i).toNat)
    let secured (t : State) : Prop := (∀ k a, 0x1E0000 ≤ a → a < 0x200000 → (t.bench k).drawer.get a = 0) ∧
      ∀ k c, k < 128 → c < 4 → ((t.bench k).ctx c).secEn = true → ((t.bench k).ctx c).status = .empty
    let wake : Report := { source := 0x80, kind := .log 0x48 (BitVec.ofNat 32 s.dev.wakeSrc) (BitVec.ofNat 32 (if s.dev.wakeSrc = 2 then s.dev.wakePart else 0)) 0 none }
    let legal (x : Nat) : Prop := 60 ≤ x ∧ x ≤ 110
    let fmax := if legal (v.toNat / 2 ^ 23 % 128) then v.toNat / 2 ^ 23 % 128 else g.fmax
    let fmin := if legal (v.toNat / 2 ^ 16 % 128) then v.toNat / 2 ^ 16 % 128 else g.fmin
    let plimit := if 50 ≤ v.toNat % 512 ∧ v.toNat % 512 ≤ 300 then v.toNat % 512 else g.plimit
    let limits (t : State) : Prop := t.glb.plimit = plimit ∧ t.glb.resp = (0, 0) ∧
      t.glb.fmax = (if fmax < fmin then g.fmax else fmax) ∧ t.glb.fmin = (if fmax < fmin then g.fmin else fmin)
    let booted (t : State) (x : Boot) : Prop := t.boot = x ∧ t.dev.bootDone = true ∧
      (s.dev.phase = .boot → t.dev.phase = .running ∧ t.glb.mboxBusy = false)
    (s.clocked = true → s.dev.phase = .fuses → ∃ t, exec .fuseLoad s = .next t ∧ t.dev.phase = .clear ∧
      t.dev.ids = [fuse 0, fuse 1, fuse 2, fuse 3] ∧ t.dev.lifecycle = lifeOf (fuse 8) ∧
      (crc = (fuse 39).toNat → t.dev.usable = fuse 7 ++ fuse 6 ++ fuse 5 ++ fuse 4 ∧ t.dev.fuseBad = false ∧ t.reports = s.reports) ∧
      (crc ≠ (fuse 39).toNat → t.dev.usable = 0 ∧ t.dev.fuseBad = true ∧
        t.reports = s.reports ++ [{ source := 0xFF, kind := .log 0x93 (BitVec.ofNat 32 crc) (fuse 39) 0 none }])) ∧
    (s.clocked = true → s.dev.phase ≠ .fuses → s.dev.bootDone = false →
      (∃ t, exec .flashTimeout s = .next t ∧ booted t { source := 1, reason := 6 }) ∧
      (sfdp ≠ 0x50444653 → ∃ t, exec (.bootImageCheck sfdp quad image) s = .next t ∧ booted t {}) ∧
      (sfdp = 0x50444653 → imageReason image 1 = 0 → ∃ t, exec (.bootImageCheck sfdp quad image) s = .next t ∧
        booted t { version := BitVec.ofNat 32 (leNat ((image.drop 4).take 4)), source := 2, quad := quad }) ∧
      (∀ r, sfdp = 0x50444653 → imageReason image 1 = r → imageReason image 2 = r → r ≠ 0 →
        ∃ t, exec (.bootImageCheck sfdp quad image) s = .next t ∧ booted t { source := 1, reason := r, quad := quad })) ∧
    (s.cbOpen = true →
      let next := g.lifeTo = none ∧ s.dev.lifecycle ≠ 3 ∧ v.toNat / 2 ^ 16 % 256 = 0x5A ∧ v.toNat / 2 ^ 8 % 4 = s.dev.lifecycle + 1;
      (next → ∃ t, exec (.lifecycleAdvance v) s = .next t ∧ t.glb.lifeTo = some (s.dev.lifecycle + 1) ∧
        t.glb.wipe = some (g.wipe.getD 1) ∧ t.dev.lifecycle = s.dev.lifecycle ∧ secured t) ∧
      (¬ next → exec (.lifecycleAdvance v) s = served s) ∧
      (v.getLsbD 31 = true → ∃ t, exec (.restRequest v) s = .next t ∧ limits t ∧
        t.dev.rest = (if s.dev.rest = .awake then .requested else s.dev.rest)) ∧
      (v.getLsbD 31 = false → ∃ t, exec (.restWake v) s = .next t ∧ limits t ∧
        t.dev.rest = (match s.dev.rest with | .awake | .requested => .awake | _ => .waking) ∧
        (s.dev.rest = .resting → t.dev.wakeSrc = 1))) ∧
    (s.clocked = true → g.wipe = none → ∀ n, g.lifeTo = some n → exec .lifecycleDone s =
      .next (({ s with glb := { g with lifeTo := none }, dev := { s.dev with lifecycle := n, fuses := tset 0 s.dev.fuses 8 (fuse 8 ||| BitVec.ofNat 32 (2 ^ (n - 1))) } } : State).logAll srcForeman 0x91
        (BitVec.ofNat 32 s.dev.lifecycle) (BitVec.ofNat 32 n) 0)) ∧
    (s.mayRest = true → ∃ t, exec .restEnter s = .next t ∧ t.dev.rest = .resting ∧ t.veneer.lines = [] ∧
      (∀ c, c < 16 → (t.col c).vrcOn = false) ∧ t.benches = s.benches ∧
      ((∀ p, (s.ten p).evlogEn = false) → t.reports = [] ∧ t.glb.seq = s.glb.seq + BitVec.ofNat 32 (s.reports.length + 1))) ∧
    (s.clocked = true → s.dev.rest = .waking → s.links.parked = [] → g.mboxGo = none → ∃ t, exec (.restExit true true) s = .next t ∧
      t.dev.rest = .awake ∧ t.benches = s.benches ∧ t.reports = s.reports ++ [wake]) ∧
    (s.dev.phase ≠ .unpowered → s.dev.phase ≠ .inReset → s.dev.tamper.contains src = false → s.tamperSeen src = true →
      (s.dev.clamped = true → exec (.tamper src m) s = .next { s with dev := { s.dev with tamper := s.dev.tamper ++ [src] } }) ∧
      (s.dev.clamped = false → s.dev.phase ≠ .fuses → s.dev.phase ≠ .clear → ∃ t, exec (.tamper src m) s = .next t ∧
        src ∈ t.dev.tamper ∧ secured t ∧ t.secureOk = false ∧ t.glb.wipe = some (g.wipe.getD 0) ∧
        t.glb.wipeReset = (match src with | .voltage => some 6 | .clock => some 7 | _ => g.wipeReset))) ∧
    (s.dev.phase ≠ .unpowered → s.dev.clamped = false → exec (.tamperDeassert src) s =
      .next { s with dev := { s.dev with tamper := s.dev.tamper.filter fun x => decide (x ≠ src) } })

/-- The dispatcher: fetch, operations, completions and the arbiter: COMMAND_FETCH of an enabled partition takes up to 16 waiting
commands in order, of those that its 64 places leave, and advances CMD_HEAD, or halts the partition when a read is refused.
The next fetched command whose descriptor has a reserved bit, an illegal OP or an unused field set completes INVALID with
RANGE, whichever row dispatches its OP. A valid NOP, or BARRIER with no earlier command, completes OK. A LOAD of one row puts
the image into the instruction drawer of every bench named and completes OK, and with a count of 0 a SEAL or PLAN_LOAD
completes OK. A valid RUN whose benches are ready loads a task for each: user or supervisor mode, SEC_EN from SEC, the program
counter at its offset, waiting for the boundary. COMPLETION_WRITE writes the oldest numbered completion where the rack has
room, and halts the partition on a refusal. EVENT_ACCEPT gives the oldest report of the source the next number, sets its fault
bits, writes its entry to the log that it goes to while that is enabled, and notes the number in a completion. (R530, R531,
R532, R534, R535, R540, R560, R564, R565, R566, R569, R571) -/
def Obligations.DispatcherCommands : Prop :=
  ∀ (s : State) (part : Part3) (source : BitVec 8),
    let p := part.toNat
    let t0 := s.ten p
    let room := min (min 16 (t0.cmdTail - t0.cmdHead).toNat) (64 - t0.cmds.length)
    let ready := s.dispatching = true ∧ s.dev.rest = .awake ∧ t0.enable = true ∧ t0.cmdEn = true ∧ t0.halted = false ∧ s.foremanModule.isSome = true
    let row (op : Nat) : Instr := match op with
      | 1 => .load part | 2 => .run part | 3 => .seal part | 4 => .planLoad part | 5 => .barrier part | _ => .nop part
    let first (c : Cmd) : Prop := t0.cmds.head? = some c ∧ c.stage = .fetched ∧ (∀ d ∈ t0.cmds.tail, d.stage = .fetched) ∧ t0.cancel = none
    let completes (c : Cmd) (t : State) (status err index : Nat) : Prop := (∀ d ∈ (t.ten p).cmds, d ∈ t0.cmds.tail) ∧
      ∃ x ∈ (t.ten p).cpls, x.id = c.id ∧ x.status = status ∧ x.err = err ∧ x.index = index ∧ x.op = c.op ∧
        x.tag = BitVec.ofNat 32 (leNat ((c.bytes.drop 4).take 4))
    (ready → room ≠ 0 →
      (∃ t, exec (.commandFetch part) s = .next t ∧ (((t.ten p).halted = true ∧ (t.ten p).haltWhy = 1 ∧ (t.ten p).cmds = t0.cmds) ∨
        ((t.ten p).cmdHead = t0.cmdHead + BitVec.ofNat 32 room ∧
          (t.ten p).cmds.map (·.id) = t0.cmds.map (·.id) ++ (List.range room).map fun i => (t0.cmdHead + BitVec.ofNat 32 i).toNat))) ∧
      (room = 1 → (s.foremanClean p (t0.cmdBase + 64 * (t0.cmdHead.toNat % 2 ^ t0.cmdSize)) 64).2 = none →
        ∃ t, exec (.commandFetch part) s = .next t ∧ (t.ten p).halted = true ∧ (t.ten p).haltWhy = 1) ∧
      (room = 1 → ∀ u l, s.foremanClean p (t0.cmdBase + 64 * (t0.cmdHead.toNat % 2 ^ t0.cmdSize)) 64 = (u, some l) →
        ∃ t, exec (.commandFetch part) s = .next t ∧ (t.ten p).cmdHead = t0.cmdHead + 1 ∧
          (t.ten p).cmds = t0.cmds ++ [{ id := t0.cmdHead.toNat, bytes := l }])) ∧
    (s.dispatching = true → ∀ c, first c → (∀ d ∈ t0.cmds.tail, d.id ≠ c.id) →
      (c.badFields = true → ∃ t, exec (row c.op) s = .next t ∧ completes c t 2 3 0) ∧
      (s.precheck p c = none →
        (c.op = 0 ∨ c.op = 5 → ∃ t, exec (row c.op) s = .next t ∧ completes c t 0 0 0) ∧
        (c.op = 1 → ∀ u l, c.count = 64 → s.foremanRead p c.addr 64 .exec = (u, .data l false) → l.length = 64 →
          ∃ t, exec (row 1) s = .next t ∧ completes c t 0 0 0 ∧ ∀ k, k < 128 →
            (c.bmask.getLsbD k = true → ∀ j, j < 64 → (t.bench k).idrawer.get (c.offset + j) = l.getD j 0) ∧
            (∀ a, (c.bmask.getLsbD k = false ∨ a < c.offset ∨ c.offset + 64 ≤ a) → (t.bench k).idrawer.get a = (s.bench k).idrawer.get a)) ∧
        (c.op = 3 ∨ c.op = 4 → c.count = 0 → ∃ t, exec (row c.op) s = .next t ∧ completes c t 0 0 0) ∧
        (c.op = 2 → c.rackMask = 0 → (∀ k, k < 128 → c.bmask.getLsbD k = true → (s.bench k).plane = .none ∧ (s.bench k).planeOk = true) →
          ∃ t, exec (row 2) s = .next t ∧ (∃ d ∈ (t.ten p).cmds, d.id = c.id ∧ d.stage = .running ∧ d.live = c.bmask) ∧
            ∀ k, k < 128 → c.bmask.getLsbD k = true → let x := (t.bench k).ctx c.ctxN
              x.status = .waiting ∧ x.await = .start ∧ x.pc = BitVec.ofNat 32 (0x400000 + c.offset) ∧ x.part = p ∧ x.cmd = c.id ∧
              x.mode = (if c.super then mSuper else mUser) ∧ x.secEn = c.sec ∧ x.ie = false ∧ ∀ r, x.reg r = 0))) ∧
    (s.dispatching = true → t0.haltWhy ≠ 2 → ∀ x rest q, t0.cpls = x :: rest → x.seq = some q →
      let n := t0.cplTail
      let entry := leBytes 4 x.tag.toNat ++ leBytes 4 (x.status + x.err * 2 ^ 8 + x.op * 2 ^ 16 + x.bench * 2 ^ 24 +
        (if n.toNat / 2 ^ t0.cplSize % 2 = 0 then 2 ^ 31 else 0)) ++ leBytes 4 x.index ++ leBytes 4 q.toNat
      let at_ := t0.cplBase + 16 * (n.toNat % 2 ^ t0.cplSize)
      (2 ^ t0.cplSize ≤ (n - t0.cplHead).toNat → exec (.completionWrite part) s = .next s) ∧
      ((n - t0.cplHead).toNat < 2 ^ t0.cplSize →
        ((s.foremanWrite p at_ entry).2 = true → ∃ t, exec (.completionWrite part) s = .next t ∧ (t.ten p).cpls = rest ∧
          (t.ten p).cplTail = n + 1 ∧ (x.irq = true → (t.ten p).irqStatus.getLsbD 0 = true)) ∧
        ((s.foremanWrite p at_ entry).2 = false → ∃ t, exec (.completionWrite part) s = .next t ∧ (t.ten p).haltWhy = 2))) ∧
    (s.alive = true →
      ((∀ r ∈ s.reports, r.source ≠ source) → exec (.eventAccept source) s = .next s) ∧
      (∀ pre r post, s.reports = pre ++ r :: post → (∀ x ∈ pre, x.source ≠ source) → r.source = source →
        (r.kind = .bare → exec (.eventAccept source) s = .next { s with
          reports := pre ++ post, glb := { s.glb with seq := s.glb.seq + 1 }, dev := { s.dev with faults := s.dev.faults ||| BitVec.ofNat 32 r.fault } }) ∧
        (∀ code i0 i1 i2 q, r.kind = .log code i0 i1 i2 (some q) →
          let u : State := { s with
            reports := pre ++ post, glb := { s.glb with seq := s.glb.seq + 1 }, dev := { s.dev with faults := s.dev.faults ||| BitVec.ofNat 32 r.fault } }
          let x := s.ten q
          let entry := leBytes 4 (s.glb.seq + 1).toNat ++ leBytes 4 s.stroke.cycle ++ leBytes 8 s.stroke.count.toNat ++
            leBytes 4 (code + source.toNat * 2 ^ 16 + q * 2 ^ 24) ++ leBytes 4 i0.toNat ++ leBytes 4 i1.toNat ++ leBytes 4 i2.toNat
          (x.evlogEn = false → exec (.eventAccept source) s = .next u) ∧
          (x.evlogEn = true → x.haltWhy ≠ 3 → (u.foremanWrite q (x.evBase + 32 * (x.evHead.toNat % 2 ^ x.evSize)) entry false).2 = true →
            ∃ t, exec (.eventAccept source) s = .next t ∧ (t.ten q).evHead = x.evHead + 1 ∧ (t.ten q).irqStatus.getLsbD 1 = true)) ∧
        (∀ q id, r.kind = .cpl q id → ∃ t, exec (.eventAccept source) s = .next t ∧ t.glb.seq = s.glb.seq + 1 ∧ t.reports = pre ++ post ∧
          (t.ten q).cpls = (s.ten q).cpls.map fun x => if x.id = id ∧ x.seq = none then { x with seq := some (s.glb.seq + 1) } else x)))

/-- The Foreman's loops over power and heat: While the Foreman runs: POWER_LOOP keeps the last ten samples and does nothing more
while their average is at most PLIMIT; above it one column above FMIN falls at least one step and gets a power cap, or with
none and pacing on the pace level rises by one. POWER_RELEASE acts only below PLIMIT less 5 W, and lowers the pace by one
unless a trip set it. THERMAL_CHECK trims and stores 64 readings, shows the hottest sensor in use, sets ALERT at ALERT_T, and
with a sensor at 105 °C or more trips every column to 60 and the pace to 15. COLUMN_EVALUATION takes the window: a stopped
bench raises the column to FMAX for 64 windows, slack below the margin raises it a step, slack above the margin by two steps'
worth lowers it a step, and the guard band follows the droop. A valid telemetry frame is taken, one that reports a fault
retires the column's benches; an invalid frame changes nothing; a lost telemetry holds the column, a long loss retires its
benches. FAN_TACH counts pulses of the fan pin. (R590, R592, R596, R599, R600, R602, R604, R621, R668, R702, R704, R720) -/
def Obligations.PowerAndHeat : Prop :=
  ∀ (s : State) (mw : Nat) (raw : List Byte) (col : Col4) (frame : BitVec 25) (pin : BitVec 3),
    let g := s.glb
    let f := s.foreman
    let c := col.toNat
    let k := s.col c
    let samples := (f.samples ++ [mw]).drop ((f.samples ++ [mw]).length - 10)
    let sampled : State := { s with foreman := { f with samples := samples, energy := f.energy + mw } }
    let retired (t : State) : Prop := (t.col c).vrcOn = false ∧ ∀ r, r < 8 → t.usable (16 * r + c) = false
    s.clocked = true → s.dev.phase ≠ .fuses →
    (samples.sum / samples.length ≤ g.plimit * 1000 → exec (.powerLoop mw) s = .next sampled) ∧
    (g.plimit * 1000 < samples.sum / samples.length →
      ((∃ d, d < 16 ∧ g.fmin < (s.col d).target) → ∃ t d, exec (.powerLoop mw) s = .next t ∧ d < 16 ∧ g.fmin < (s.col d).target ∧
        (t.col d).pcap = some ((s.col d).target - 1) ∧ (t.col d).target < (s.col d).target ∧ ∀ e, e ≠ d → t.col e = s.col e) ∧
      ((∀ d, d < 16 → (s.col d).target ≤ g.fmin) → f.paceEn = true → f.pace < 15 → ∃ t, exec (.powerLoop mw) s = .next t ∧
        t.foreman = { sampled.foreman with pace := f.pace + 1 } ∧ t.cols = s.cols)) ∧
    (g.plimit * 1000 ≤ f.samples.sum / f.samples.length + 5000 → exec .powerRelease s = .next s) ∧
    (f.samples.sum / f.samples.length + 5000 < g.plimit * 1000 → f.pace ≠ 0 →
      (f.tripPace = true → exec .powerRelease s = .next s) ∧
      (f.tripPace = false → ∃ t, exec .powerRelease s = .next t ∧ t.foreman = { f with pace := f.pace - 1 } ∧ t.cols = s.cols)) ∧
    (raw.length = 64 → ∃ t, exec (.thermalCheck raw) s = .next t ∧
      let reads (i : Nat) : Byte := tget 0 t.foreman.readings i
      (∀ i, i < 64 → reads i = BitVec.ofInt 8 ((raw.getD i 0).toInt +
        (BitVec.ofNat 4 ((tget 0 s.dev.fuses (25 + i / 8)).toNat / 2 ^ (4 * (i % 8)) % 16)).toInt)) ∧
      ((∃ i, i < 64 ∧ i ∉ t.foreman.excluded) → t.glb.sensor < 64 ∧ t.glb.sensor ∉ t.foreman.excluded ∧ t.glb.tmax = reads t.glb.sensor ∧
        (∀ i, i < 64 → i ∉ t.foreman.excluded → (reads i).toInt ≤ t.glb.tmax.toInt) ∧
        (t.glb.alert = true ↔ g.alert = true ∨ (g.alertT : Int) ≤ t.glb.tmax.toInt)) ∧
      ((∃ i, i < 64 ∧ i ∉ t.foreman.excluded ∧ 105 ≤ (reads i).toInt) → t.glb.trip = true ∧ t.foreman.pace = 15 ∧
        ∀ d, d < 16 → (t.col d).tcap = some 60 ∧ (t.col d).tripped = true)) ∧
    (k.ended = none → exec (.columnEvaluation col) s = .next s) ∧
    (∀ w, k.ended = some w → ∃ t, exec (.columnEvaluation col) s = .next t ∧
      let d := t.col c
      let m := f.margin + 128
      let step_ := (2 ^ s.stroke.len + 99) / 100
      d.ended = none ∧ d.last = w ∧
      (w.stopped = true → d.loopFreq = g.fmax ∧ d.hold = 64) ∧
      (∀ x, w.stopped = false → w.slack = some x → d.hold = k.hold - 1 ∧
        (x < m → d.loopFreq = k.target + 1) ∧ ((m + 2 * step_ : Int) ≤ x → k.hold = 0 → d.loopFreq = k.target - 1) ∧
        ((m : Int) ≤ x → (x < m + 2 * step_ ∨ k.hold ≠ 0) → d.loopFreq = k.target)) ∧
      (∀ x, w.droop = some x → (x < 10 → d.gb = min 30 (k.gb + 6)) ∧ (10 ≤ x → x < 25 → d.gb = k.gb) ∧
        (25 ≤ x → d.gb = if 63 ≤ k.calm then k.gb - 6 else k.gb))) ∧
    (k.vrcOn = true →
      (frameOk frame = false → exec (.telemetryFrame col frame) s = .next s) ∧
      (frameOk frame = true → (frame.getLsbD 21 = true ∨ frame.getLsbD 22 = true) →
        ∃ t, exec (.telemetryFrame col frame) s = .next t ∧ retired t) ∧
      (frameOk frame = true → frame.getLsbD 21 = false → frame.getLsbD 22 = false → s.stroke.cycle < k.settle → k.lost = false →
        exec (.telemetryFrame col frame) s = .next (s.modCol c fun k =>
          { k with vmeas := frame.toNat / 2 % 256, imeas := frame.toNat / 2 ^ 9 % 4096, lost := false })) ∧
      exec (.telemetryLoss col false) s = .next (s.modCol c fun k => { k with lost := true }) ∧
      ∃ t, exec (.telemetryLoss col true) s = .next t ∧ retired t) ∧
    (s.pinActs pin.toNat = 5 → (∀ n, n < pin.toNat → s.pinFunc n ≠ 5) →
      exec (.fanTach pin) s = .next { s with foreman := { f with fan := f.fan + 1 } }) ∧
    (s.pinActs pin.toNat ≠ 5 → exec (.fanTach pin) s = .next s)

/-- The JTAG port, the I3C port, and reserved encodings: JTAG, with power: TAP_RESET selects IDCODE; IDCODE shifts out stepping,
part, 0x7A3 and 1; BYPASS one 0, as does HIGHZ; FUSEREAD the forty fuse words, word 0 lowest; BOOTINFO version, source, reason
and the quad bit. SAMPLE/PRELOAD captures a free value and takes the cells; the instructions that drive pins do so while
RESET_N is low and act as BYPASS otherwise. FUSEPROG in BLANK sets the 1-bits of its data in a word other than 8 up to 39 and
is then busy until FUSEPROG_DONE, and otherwise acts as BYPASS; no other word changes. CLAMPREAD shifts out the word that the
scan before named, with its address and region, and latches its own: 0 while the device is not clamped, and in clamp a fuse
word or, after the clear of start-up, a word of a drawer outside bank 15 without errors. While clamped every other instruction
only selects itself and shifts out 0. I3C, while it serves: ENTDAA gives a dynamic address to a port without one; SETDASA does
so when the static address 0x3A is named; RSTDAA takes it away; GETPID answers the six bytes of the provisional ID, the least
significant first; GETBCR, GETDCR and GETSTATUS answer one, one and two bytes, whose values the spec does not state; a private
write of one byte that is a multiple of 4 below 0x20 sets OFFSET and any other changes nothing; a private read answers the
four bytes of the register at OFFSET, lowest first, and advances OFFSET by 4 modulo 0x20. While it does not serve, nothing
changes. A reserved encoding that issues raises ILLEGAL; a word that encodes an instruction is no such event. (R670, R671,
R673, R674, R675, R677, R681, R708, R710, R711, R141, R142) -/
def Obligations.ManagementPorts : Prop :=
  (∀ (s : State) (x : Bool) (dr : Nat) (prog : BitVec 40) (region : BitVec 8) (addr : Word),
    let fuse (i : Nat) : Word := tget 0 s.dev.fuses i
    let scans (i : Instr) (ir dr : Nat) : Prop := exec i s = .next { s with jtag := { s.jtag with ir := ir, dr := dr } }
    let samples (i : Instr) (ir : Nat) : Prop := exec i s = .next { s with free := s.free + 1, jtag := { s.jtag with
      ir := ir, dr := Config.boundarySample s.free % 2 ^ Config.boundaryCells, bsr := dr % 2 ^ Config.boundaryCells } }
    s.dev.phase ≠ .unpowered →
    scans .tapReset 0x01 0 ∧ scans (.bypass x) 0xFF 0 ∧ scans (.highz x) 0x08 0 ∧
    (s.dev.clamped = true → scans .idcode 0x01 0 ∧ scans .fuseread 0x10 0 ∧ scans .bootinfo 0x11 0 ∧ scans (.samplePreload dr) 0x02 0 ∧
      scans (.extest dr) 0x00 0 ∧ scans (.extestPulse dr) 0x04 0 ∧ scans (.extestTrain dr) 0x05 0 ∧ scans (.fuseprog prog) 0x30 0) ∧
    (s.dev.clamped = false →
      scans .idcode 0x01 ((fuse 0).toNat / 2 ^ 28 * 2 ^ 28 + (fuse 0).toNat % 2 ^ 16 * 2 ^ 12 + 0x7A3 * 2 + 1) ∧
      (∃ t, exec .fuseread s = .next t ∧ t.jtag.ir = 0x10 ∧ ∀ i, i < 40 → t.jtag.dr / 2 ^ (32 * i) % 2 ^ 32 = (fuse i).toNat) ∧
      scans .bootinfo 0x11 (s.boot.version.toNat + s.boot.source * 2 ^ 32 + s.boot.reason * 2 ^ 36 + if s.boot.quad then 2 ^ 40 else 0) ∧
      samples (.samplePreload dr) 0x02 ∧
      (s.dev.resetLow = true → samples (.extest dr) 0x00 ∧ samples (.extestPulse dr) 0x04 ∧ samples (.extestTrain dr) 0x05) ∧
      (s.dev.resetLow = false → scans (.extest dr) 0x00 0 ∧ scans (.extestPulse dr) 0x04 0 ∧ scans (.extestTrain dr) 0x05 0) ∧
      exec .fuseprogDone s = .next { s with jtag := { s.jtag with fuseBusy := false } } ∧
      (let w := prog.toNat / 2 ^ 32 % 64
       let accepted := (fuse 8).toNat % 8 = 0 ∧ s.jtag.fuseBusy = false ∧ prog.toNat / 2 ^ 38 = 0 ∧ w ≠ 8 ∧ w ≤ 39;
       (¬ accepted → scans (.fuseprog prog) 0x30 0) ∧
       (accepted → ∃ t, exec (.fuseprog prog) s = .next t ∧ t.jtag.ir = 0x30 ∧ t.jtag.dr = 0 ∧ t.jtag.fuseBusy = true ∧
         tget 0 t.dev.fuses w = fuse w ||| prog.extractLsb' 0 32 ∧ ∀ i, i ≠ w → tget 0 t.dev.fuses i = fuse i))) ∧
    ∃ t, exec (.clampread region addr) s = .next t ∧ t.jtag.ir = 0x20 ∧ t.jtag.loc = (region.toNat, addr) ∧
      (let r := s.jtag.loc.1
       let a := s.jtag.loc.2.toNat
       let data := t.jtag.dr % 2 ^ 32;
       t.jtag.dr / 2 ^ 32 = a + r * 2 ^ 32 ∧ (s.dev.clamped = false → data = 0) ∧
       (s.dev.clamped = true → r = 0xD0 → a < 160 → data = (fuse (a / 4)).toNat) ∧
       (s.dev.clamped = true → s.dev.phase ≠ .fuses → s.dev.phase ≠ .clear → r < 0x80 → a < 0x1E0000 → (s.bench r).ecc = [] → data = leNat ((s.bench r).drawer.getBytes (a / 4 * 4) 4)))) ∧
  (∀ (s : State) (stat dyn : BitVec 7) (y : Byte) (ys : List Byte) (b : Bench7) (w : Word),
    let c := s.i3c
    let turns (i : Instr) (c : I3c) : Prop := exec i s = .next { s with i3c := c }
    let free (i : Instr) (n : Nat) : Prop := ∃ l, l.length = n ∧ exec i s = .next { s with free := s.free + 1, i3c := { c with sent := l } }
    let serves := s.clocked = true ∧ s.dev.phase ≠ .fuses
    let reg : Word := match c.offset with
      | 0x00 => s.idWord 0 | 0x04 => s.idWord 1 | 0x08 => s.idWord 2 | 0x0C => s.idWord 3
      | 0x10 => s.glbStatus | 0x14 => s.thermStatus | 0x18 => s.dev.faults | _ => s.glb.resetCause.setWidth 32
    (serves →
      turns (.entdaa dyn) { c with dyn := some (c.dyn.getD dyn) } ∧
      turns (.setdasa stat dyn) { c with dyn := if stat = 0x3A ∧ c.dyn = none then some dyn else c.dyn } ∧
      turns .rstdaa { c with dyn := none } ∧
      (∃ l, l.length = 6 ∧ turns .getpid { c with sent := l } ∧ leNat l = 0x7A3 * 2 ^ 33 + (s.idWord 0).toNat % 2 ^ 16 * 2 ^ 16 +
        (s.idWord 3).toNat / 2 ^ 19 % 256 * 2 ^ 8 + (s.idWord 3).toNat / 2 ^ 11 % 256) ∧
      free .getbcr 1 ∧ free .getdcr 1 ∧ free .getstatus 2 ∧
      (y.toNat % 4 = 0 → y.toNat < 0x20 → turns (.privateWrite [y]) { c with offset := y.toNat }) ∧
      (y.toNat % 4 ≠ 0 ∨ 0x20 ≤ y.toNat → exec (.privateWrite [y]) s = .next s) ∧
      (ys.length ≠ 1 → exec (.privateWrite ys) s = .next s) ∧
      turns .privateRead { c with offset := (c.offset + 4) % 0x20, sent := leBytes 4 reg.toNat }) ∧
    (¬ serves → ∀ i ∈ [Instr.entdaa dyn, .setdasa stat dyn, .rstdaa, .getpid, .getbcr, .getdcr, .getstatus, .privateWrite ys, .privateRead],
      exec i s = .next s) ∧
    (decodeJig b w = none → s.issues b.toNat .plain [] false →
      exec (.reservedEncoding b w) s = .next ((s.atIssue b.toNat false).raise b.toNat 1 none)) ∧
    (decodeJig b w ≠ none → exec (.reservedEncoding b w) s = .next s))

/-- What reset leaves: After a power-on reset nothing is queued and no command, packet, request or report is under way; the stroke
reference is LOCAL with count 0, LEN 14, RANK 0xFFF and neither lock nor plan; the device has identifier 0xFFF and POWER_ON as
its reset cause; GLB_POWER_CTL and GLB_THERM_STATUS hold 110, 60, 300 and 95; every bench has empty contexts with zero
registers, JVEC and JSVEC at 0x0040_0000, disabled racks, free tags and empty memories; every partition is disabled with
nothing in its mask, all interrupts masked and a span of 48; every dowel is zero; every port is off and every host module
untrained; and the invariants of the block hold. (R37, R93, R94, R112, R179, R423, R478, R502, R503, R504, R544, R552) -/
def Obligations.ResetState : Prop :=
  let s := State.reset
  s.pending = [] ∧ s.reports = [] ∧ s.noc = {} ∧ s.host.mem = [] ∧
  s.stroke.state = 0 ∧ s.stroke.count = 0 ∧ s.stroke.len = 14 ∧ s.stroke.rank = 0xFFF ∧ s.stroke.lock = false ∧ s.stroke.planEn = false ∧
  s.stroke.role = 0 ∧ s.dev.id = 0xFFF ∧ s.glb.resetCause = 1 ∧ s.glb.fmax = 110 ∧ s.glb.fmin = 60 ∧ s.glb.plimit = 300 ∧ s.glb.alertT = 95 ∧
  s.dev.faults = 0 ∧ s.glb.seq = 0 ∧
  (∀ k, let v := s.bench k
    v.jvec = 0x00400000 ∧ v.jsvec = 0x00400000 ∧ v.jipend = 0 ∧ v.mailbox = [] ∧ v.tags.free = List.range 64 ∧ v.streams = [] ∧ v.xfers = [] ∧
    (∀ a, v.drawer.get a = 0 ∧ v.idrawer.get a = 0) ∧ (∀ r, (v.rack r).enable = false) ∧
    ∀ n, (v.ctx n).status = .empty ∧ (v.ctx n).mode = mSuper ∧ (v.ctx n).ie = false ∧ ∀ r, (v.ctx n).reg r = 0) ∧
  (∀ p, let t := s.ten p
    t.enable = false ∧ t.mask = 0 ∧ t.cmdEn = false ∧ t.evlogEn = false ∧ t.irqMask = 0x1F ∧ t.irqStatus = 0 ∧ t.xen = false ∧ t.xspan = 48 ∧
    t.cmds = [] ∧ t.cpls = [] ∧ t.plan = []) ∧
  (∀ d, (s.dowel d).count = 0 ∧ (s.dowel d).target = 0 ∧ (s.dowel d).waits = 0) ∧ (∀ p, (s.port p).live = false) ∧
  (∀ m, (s.hpp m).works = false) ∧ s.Inv

/-- Every step keeps the invariants, clears no fuse, and leaves the queue to its front command: From every state in which no two
partitions hold one bench, every board of every bench has a legal shape of 1 to 64 rows of 1 to 64 bytes in whole elements,
and the memory of every bench and of the host is in its canonical form, every step answers a next state of which the same
holds. In every step, from any state, every fuse bit that was set stays set, and the queue loses its front command and nothing
else. (R513, R550, R159, R160, R629, R675, 95_what_each_step_holds.md) -/
def Obligations.EveryStepKeepsTheInvariants : Prop :=
  (∀ s t : State, s.Inv → step s = .next t → t.Inv) ∧
  (∀ s t : State, step s = .next t → t.pending = s.pending.tail ∧
    ∀ w i, (tget 0 s.dev.fuses w).getLsbD i = true → (tget 0 t.dev.fuses w).getLsbD i = true)
end

