-- ==== Sys2Proof/Laws/Bits.lean ====
section
/-! SUPPORT. What a field reads after a field is written. -/

namespace Sys2Proof.Machine

/-- A bit of a word after a field is written. -/
theorem getLsbD_wput (x : Word) (hi lo v i : Nat) (hh : hi < 32) (hl : lo ≤ hi) :
    (wput x hi lo v).getLsbD i = if lo ≤ i ∧ i ≤ hi then v.testBit (i - lo) else x.getLsbD i := by
  unfold wput
  by_cases hi32 : i < 32
  · simp only [BitVec.getLsbD_or, BitVec.getLsbD_and, BitVec.getLsbD_not, BitVec.getLsbD_ofNat, hi32, decide_true, Bool.true_and,
      Nat.testBit_mul_two_pow, Nat.testBit_two_pow_sub_one]
    by_cases h1 : lo ≤ i
    · by_cases h2 : i ≤ hi
      · simp [h1, h2, show i - lo < hi + 1 - lo by omega]
      · simp [h1, h2, show ¬ i - lo < hi + 1 - lo by omega]
    · simp [h1]
  · rw [if_neg (by omega)]
    simp [BitVec.getLsbD_of_ge _ _ (by omega : 32 ≤ i)]

theorem getLsbD_setJ (c : Ctx) (hi lo v i : Nat) (hh : hi < 32) (hl : lo ≤ hi) :
    (c.setJ hi lo v).jstat.getLsbD i = if lo ≤ i ∧ i ≤ hi then v.testBit (i - lo) else c.jstat.getLsbD i :=
  getLsbD_wput c.jstat hi lo v i hh hl

/-- A one-bit flag of JSTAT after a one-bit flag is written. -/
theorem getLsbD_setJ_bit (c : Ctx) (k i : Nat) (p : Bool) (hk : k < 32) :
    (c.setJ k k (b2n p)).jstat.getLsbD i = if i = k then p else c.jstat.getLsbD i := by
  rw [getLsbD_setJ c k k _ i hk (Nat.le_refl k)]
  by_cases h : i = k
  · subst h; simp; cases p <;> rfl
  · rw [if_neg (by omega), if_neg h]

/-- A two-bit field of a word, by its bits. -/
theorem two_bits_ext (x y : BitVec 2) (h0 : x.getLsbD 0 = y.getLsbD 0) (h1 : x.getLsbD 1 = y.getLsbD 1) : x = y := by
  apply BitVec.eq_of_getLsbD_eq
  intro i hi
  match i, hi with
  | 0, _ => exact h0
  | 1, _ => exact h1

@[simp] theorem Ctx.mode_setMode (c : Ctx) (m : BitVec 2) : (c.setMode m).mode = m := by
  have h : ∀ i, i < 2 → (c.setMode m).mode.getLsbD i = m.getLsbD i := by
    intro i hi
    simp only [Ctx.mode, Ctx.setMode, BitVec.getLsbD_extractLsb', hi, decide_true, Bool.true_and]
    rw [getLsbD_setJ _ _ _ _ _ (by decide) (by decide), if_pos (by omega), BitVec.testBit_toNat]
    simp
  exact two_bits_ext _ _ (h 0 (by decide)) (h 1 (by decide))

end Sys2Proof.Machine
end

