-- ==== Sys2Proof/Laws/Tab.lean ====
section
/-! SUPPORT. What reading gives after writing a sparse table or a memory, and that every operation on one keeps its
canonical form. -/

namespace Sys2Proof.Machine

variable {α : Type}

theorem tget_tput_same (d : α) (t : Tab α) (k : Nat) (v : α) : tget d (tput k v t) k = v := by
  induction t with
  | nil => simp [tput, tget]
  | cons e t ih =>
    obtain ⟨i, w⟩ := e
    unfold tput
    split
    · simp [tget]
    · split
      · simp [tget]
      · simp only [tget]; rw [if_neg (by omega), ih]

theorem tget_tput_ne (d : α) (t : Tab α) {k j : Nat} (v : α) (h : j ≠ k) : tget d (tput k v t) j = tget d t j := by
  induction t with
  | nil => simp [tput, tget, Ne.symm h]
  | cons e t ih =>
    obtain ⟨i, w⟩ := e
    unfold tput
    split
    · simp [tget, Ne.symm h]
    · split
      · next hk => subst hk; simp [tget, Ne.symm h]
      · simp only [tget, ih]

theorem tget_tdel_same (d : α) (t : Tab α) (k : Nat) : tget d (tdel k t) k = d := by
  induction t with
  | nil => rfl
  | cons e t ih =>
    obtain ⟨i, w⟩ := e
    unfold tdel
    split
    · exact ih
    · next h => rw [tget, if_neg h, ih]

theorem tget_tdel_ne (d : α) (t : Tab α) {k j : Nat} (h : j ≠ k) : tget d (tdel k t) j = tget d t j := by
  induction t with
  | nil => rfl
  | cons e t ih =>
    obtain ⟨i, w⟩ := e
    unfold tdel
    split
    · next hk => subst hk; rw [ih, tget, if_neg (Ne.symm h)]
    · simp only [tget, ih]

@[simp] theorem tget_tset_same [DecidableEq α] (d : α) (t : Tab α) (k : Nat) (v : α) : tget d (tset d t k v) k = v := by
  unfold tset
  split
  · next h => rw [h, tget_tdel_same]
  · exact tget_tput_same ..

theorem tget_tset_ne [DecidableEq α] (d : α) (t : Tab α) {k j : Nat} (v : α) (h : j ≠ k) :
    tget d (tset d t k v) j = tget d t j := by
  unfold tset
  split
  · exact tget_tdel_ne d t h
  · exact tget_tput_ne d t v h

/-- Reading any index after a write. -/
theorem tget_tset [DecidableEq α] (d : α) (t : Tab α) (k j : Nat) (v : α) :
    tget d (tset d t k v) j = if j = k then v else tget d t j := by
  split
  · next h => subst h; simp
  · next h => exact tget_tset_ne d t v h

theorem tget_tmod [DecidableEq α] (d : α) (t : Tab α) (k j : Nat) (f : α → α) :
    tget d (tmod d t k f) j = if j = k then f (tget d t k) else tget d t j := tget_tset ..

theorem tfind_tput_same (t : Tab α) (k : Nat) (v : α) : tfind (tput k v t) k = some v := by
  induction t with
  | nil => simp [tput, tfind]
  | cons e t ih =>
    obtain ⟨i, w⟩ := e
    unfold tput
    split
    · simp [tfind]
    · split
      · simp [tfind]
      · simp only [tfind]; rw [if_neg (by omega), ih]

theorem tfind_tput_ne (t : Tab α) {k j : Nat} (v : α) (h : j ≠ k) : tfind (tput k v t) j = tfind t j := by
  induction t with
  | nil => simp [tput, tfind, Ne.symm h]
  | cons e t ih =>
    obtain ⟨i, w⟩ := e
    unfold tput
    split
    · simp [tfind, Ne.symm h]
    · split
      · next hk => subst hk; simp [tfind, Ne.symm h]
      · simp only [tfind, ih]

/-! ### The canonical form -/

theorem tabove_mono {k j : Nat} (h : j ≤ k) : ∀ {t : Tab α}, tabove k t → tabove j t
  | [], _ => rfl
  | (i, _) :: t, hk => by
    simp only [tabove, Bool.and_eq_true, decide_eq_true_eq] at hk ⊢
    exact ⟨by omega, tabove_mono h hk.2⟩

theorem tabove_tdel {k j : Nat} : ∀ {t : Tab α}, tabove j t → tabove j (tdel k t)
  | [], _ => rfl
  | (i, w) :: t, h => by
    simp only [tabove, Bool.and_eq_true, decide_eq_true_eq] at h
    unfold tdel
    split
    · exact tabove_tdel h.2
    · simp only [tabove, Bool.and_eq_true, decide_eq_true_eq]
      exact ⟨h.1, tabove_tdel h.2⟩

theorem tabove_tput {k j : Nat} {v : α} (hj : j < k) : ∀ {t : Tab α}, tabove j t → tabove j (tput k v t)
  | [], _ => by simpa [tput, tabove] using hj
  | (i, w) :: t, h => by
    have h' := h
    simp only [tabove, Bool.and_eq_true, decide_eq_true_eq] at h
    unfold tput
    split
    · simp only [tabove, Bool.and_eq_true, decide_eq_true_eq]; exact ⟨hj, h⟩
    · split
      · simp only [tabove, Bool.and_eq_true, decide_eq_true_eq]; exact ⟨hj, h.2⟩
      · simp only [tabove, Bool.and_eq_true, decide_eq_true_eq]; exact ⟨h.1, tabove_tput hj h.2⟩

theorem twf_tdel [DecidableEq α] (d : α) (k : Nat) : ∀ {t : Tab α}, twf d t → twf d (tdel k t)
  | [], _ => rfl
  | (i, w) :: t, h => by
    simp only [twf, Bool.and_eq_true, decide_eq_true_eq] at h
    unfold tdel
    split
    · exact twf_tdel d k h.2
    · simp only [twf, Bool.and_eq_true, decide_eq_true_eq]
      exact ⟨⟨tabove_tdel h.1.1, h.1.2⟩, twf_tdel d k h.2⟩

theorem twf_tput [DecidableEq α] (d : α) (k : Nat) {v : α} (hv : v ≠ d) : ∀ {t : Tab α}, twf d t → twf d (tput k v t)
  | [], _ => by simp [tput, twf, tabove, hv]
  | (i, w) :: t, h => by
    have h0 := h
    simp only [twf, Bool.and_eq_true, decide_eq_true_eq] at h
    unfold tput
    split
    · next hk =>
      simp only [twf, tabove, Bool.and_eq_true, decide_eq_true_eq]
      exact ⟨⟨⟨hk, tabove_mono (by omega) h.1.1⟩, hv⟩, h⟩
    · split
      · next hk => subst hk; simp only [twf, Bool.and_eq_true, decide_eq_true_eq]; exact ⟨⟨h.1.1, hv⟩, h.2⟩
      · simp only [twf, Bool.and_eq_true, decide_eq_true_eq]
        exact ⟨⟨tabove_tput (by omega) h.1.1, h.1.2⟩, twf_tput d k hv h.2⟩

/-- A write keeps the canonical form. -/
theorem twf_tset [DecidableEq α] (d : α) {t : Tab α} (k : Nat) (v : α) (h : twf d t) : twf d (tset d t k v) := by
  unfold tset
  split
  · exact twf_tdel d k h
  · next hv => exact twf_tput d k hv h

theorem twf_filter [DecidableEq α] (d : α) (p : Nat × α → Bool) : ∀ {t : Tab α}, twf d t → twf d (t.filter p)
  | [], _ => rfl
  | (i, w) :: t, h => by
    simp only [twf, Bool.and_eq_true, decide_eq_true_eq] at h
    have ha : ∀ {t : Tab α}, tabove i t → tabove i (t.filter p) := by
      intro t
      induction t with
      | nil => intro _; rfl
      | cons e t ih =>
        intro hh
        simp only [tabove, Bool.and_eq_true, decide_eq_true_eq] at hh
        simp only [List.filter_cons]
        split
        · simp only [tabove, Bool.and_eq_true, decide_eq_true_eq]; exact ⟨hh.1, ih hh.2⟩
        · exact ih hh.2
    simp only [List.filter_cons]
    split
    · simp only [twf, Bool.and_eq_true, decide_eq_true_eq]
      exact ⟨⟨ha h.1.1, h.1.2⟩, twf_filter d p h.2⟩
    · exact twf_filter d p h.2

/-! ### Memories -/

@[simp] theorem Mem.get_nil (a : Nat) : Mem.get [] a = 0 := rfl

theorem Mem.get_set (m : Mem) (a b : Nat) (v : Byte) : (m.set a v).get b = if b = a then v else m.get b := tget_tset ..

theorem Mem.set_wf {m : Mem} (a : Nat) (v : Byte) (h : m.wf) : (m.set a v).wf := twf_tset 0 a v h

theorem Mem.setBytes_wf : ∀ (l : List Byte) {m : Mem} (a : Nat), m.wf → (m.setBytes a l).wf
  | [], _, _, h => h
  | v :: vs, _, a, h => Mem.setBytes_wf vs (a + 1) (Mem.set_wf a v h)

theorem Mem.clear_wf {m : Mem} (lo hi : Nat) (h : m.wf) : (m.clear lo hi).wf := twf_filter 0 _ h

/-- What a byte reads after bytes are written upward from `a`. -/
theorem Mem.get_setBytes : ∀ (l : List Byte) (m : Mem) (a b : Nat),
    (m.setBytes a l).get b = if a ≤ b ∧ b < a + l.length then l.getD (b - a) 0 else m.get b
  | [], m, a, b => by simp only [Mem.setBytes, List.length_nil, Nat.add_zero]; rw [if_neg (by omega)]
  | v :: vs, m, a, b => by
    simp only [Mem.setBytes, List.length_cons]
    rw [Mem.get_setBytes vs (m.set a v) (a + 1) b, Mem.get_set]
    by_cases h : b = a
    · subst h; rw [if_neg (by omega), if_pos rfl, if_pos (by omega)]; simp
    · by_cases h2 : a + 1 ≤ b ∧ b < a + 1 + vs.length
      · rw [if_pos h2, if_pos (by omega)]
        obtain ⟨k, rfl⟩ : ∃ k, b = a + 1 + k := ⟨b - (a + 1), by omega⟩
        rw [show a + 1 + k - (a + 1) = k by omega, show a + 1 + k - a = k + 1 by omega]; rfl
      · rw [if_neg h2, if_neg h, if_neg (by omega)]

theorem Mem.getBytes_length : ∀ (m : Mem) (a n : Nat), (m.getBytes a n).length = n
  | _, _, 0 => rfl
  | m, a, n + 1 => by simp only [Mem.getBytes, List.length_cons]; rw [Mem.getBytes_length m (a + 1) n]

/-- A read of the bytes just written gives them. -/
theorem Mem.getBytes_setBytes : ∀ (l : List Byte) (m : Mem) (a : Nat), (m.setBytes a l).getBytes a l.length = l
  | [], _, _ => rfl
  | v :: vs, m, a => by
    simp only [List.length_cons, Mem.getBytes]
    congr 1
    · rw [Mem.get_setBytes, if_pos (by simp)]; simp
    · exact Mem.getBytes_setBytes vs (m.set a v) (a + 1)

theorem Mem.get_clear : ∀ (m : Mem) (lo hi a : Nat),
    (m.clear lo hi).get a = if lo ≤ a ∧ a < hi then 0 else m.get a
  | [], lo, hi, a => by simp [Mem.clear]
  | (i, v) :: t, lo, hi, a => by
    have ih := Mem.get_clear t lo hi a
    unfold Mem.clear Mem.get at *
    simp only [List.filter_cons]
    split
    · next hk =>
      simp only [Bool.or_eq_true, decide_eq_true_eq] at hk
      simp only [tget]
      by_cases h : i = a
      · subst h; rw [if_pos rfl, if_neg (by omega), if_pos rfl]
      · rw [if_neg h, ih, if_neg h]
    · next hk =>
      simp only [Bool.or_eq_true, decide_eq_true_eq, not_or, Nat.not_lt, Nat.not_le] at hk
      simp only [tget]
      by_cases h : i = a
      · subst h; rw [ih, if_pos (by omega), if_pos (by omega)]
      · rw [ih, if_neg h]

/-- Changing every index of a list without repeats changes each of them once. -/
theorem tget_foldl_tmod [DecidableEq α] (d : α) (f : α → α) (l : List Nat) (hn : l.Nodup) (t : Tab α) (c : Nat) :
    tget d (l.foldl (fun t c => tmod d t c f) t) c = if c ∈ l then f (tget d t c) else tget d t c := by
  induction l generalizing t with
  | nil => simp
  | cons a l ih =>
    have hn' := List.nodup_cons.1 hn
    simp only [List.foldl_cons]
    rw [ih hn'.2, tget_tmod]
    by_cases hc : c = a
    · subst hc; simp [hn'.1]
    · simp [hc]

end Sys2Proof.Machine
end

