-- ==== Sys2Proof/Laws/State.lean ====
section
/-! SUPPORT. One lemma per field of State per update, and what the accessors read after an update. -/

namespace Sys2Proof.Machine

variable (s : State)

@[simp] theorem State.setBench_tens (b : Nat) (v : Bench) : (s.setBench b v).tens = s.tens := rfl
@[simp] theorem State.setBench_dowels (b : Nat) (v : Bench) : (s.setBench b v).dowels = s.dowels := rfl
@[simp] theorem State.setBench_noc (b : Nat) (v : Bench) : (s.setBench b v).noc = s.noc := rfl
@[simp] theorem State.setBench_links (b : Nat) (v : Bench) : (s.setBench b v).links = s.links := rfl
@[simp] theorem State.setBench_ports (b : Nat) (v : Bench) : (s.setBench b v).ports = s.ports := rfl
@[simp] theorem State.setBench_host (b : Nat) (v : Bench) : (s.setBench b v).host = s.host := rfl
@[simp] theorem State.setBench_hpps (b : Nat) (v : Bench) : (s.setBench b v).hpps = s.hpps := rfl
@[simp] theorem State.setBench_veneer (b : Nat) (v : Bench) : (s.setBench b v).veneer = s.veneer := rfl
@[simp] theorem State.setBench_stroke (b : Nat) (v : Bench) : (s.setBench b v).stroke = s.stroke := rfl
@[simp] theorem State.setBench_dev (b : Nat) (v : Bench) : (s.setBench b v).dev = s.dev := rfl
@[simp] theorem State.setBench_cols (b : Nat) (v : Bench) : (s.setBench b v).cols = s.cols := rfl
@[simp] theorem State.setBench_glb (b : Nat) (v : Bench) : (s.setBench b v).glb = s.glb := rfl
@[simp] theorem State.setBench_foreman (b : Nat) (v : Bench) : (s.setBench b v).foreman = s.foreman := rfl
@[simp] theorem State.setBench_boot (b : Nat) (v : Bench) : (s.setBench b v).boot = s.boot := rfl
@[simp] theorem State.setBench_jtag (b : Nat) (v : Bench) : (s.setBench b v).jtag = s.jtag := rfl
@[simp] theorem State.setBench_i3c (b : Nat) (v : Bench) : (s.setBench b v).i3c = s.i3c := rfl
@[simp] theorem State.setBench_reports (b : Nat) (v : Bench) : (s.setBench b v).reports = s.reports := rfl
@[simp] theorem State.setBench_free (b : Nat) (v : Bench) : (s.setBench b v).free = s.free := rfl
@[simp] theorem State.setBench_pending (b : Nat) (v : Bench) : (s.setBench b v).pending = s.pending := rfl

@[simp] theorem State.modBench_tens (b : Nat) (f : Bench → Bench) : (s.modBench b f).tens = s.tens := rfl
@[simp] theorem State.modBench_dowels (b : Nat) (f : Bench → Bench) : (s.modBench b f).dowels = s.dowels := rfl
@[simp] theorem State.modBench_noc (b : Nat) (f : Bench → Bench) : (s.modBench b f).noc = s.noc := rfl
@[simp] theorem State.modBench_links (b : Nat) (f : Bench → Bench) : (s.modBench b f).links = s.links := rfl
@[simp] theorem State.modBench_ports (b : Nat) (f : Bench → Bench) : (s.modBench b f).ports = s.ports := rfl
@[simp] theorem State.modBench_host (b : Nat) (f : Bench → Bench) : (s.modBench b f).host = s.host := rfl
@[simp] theorem State.modBench_hpps (b : Nat) (f : Bench → Bench) : (s.modBench b f).hpps = s.hpps := rfl
@[simp] theorem State.modBench_veneer (b : Nat) (f : Bench → Bench) : (s.modBench b f).veneer = s.veneer := rfl
@[simp] theorem State.modBench_stroke (b : Nat) (f : Bench → Bench) : (s.modBench b f).stroke = s.stroke := rfl
@[simp] theorem State.modBench_dev (b : Nat) (f : Bench → Bench) : (s.modBench b f).dev = s.dev := rfl
@[simp] theorem State.modBench_cols (b : Nat) (f : Bench → Bench) : (s.modBench b f).cols = s.cols := rfl
@[simp] theorem State.modBench_glb (b : Nat) (f : Bench → Bench) : (s.modBench b f).glb = s.glb := rfl
@[simp] theorem State.modBench_foreman (b : Nat) (f : Bench → Bench) : (s.modBench b f).foreman = s.foreman := rfl
@[simp] theorem State.modBench_boot (b : Nat) (f : Bench → Bench) : (s.modBench b f).boot = s.boot := rfl
@[simp] theorem State.modBench_jtag (b : Nat) (f : Bench → Bench) : (s.modBench b f).jtag = s.jtag := rfl
@[simp] theorem State.modBench_i3c (b : Nat) (f : Bench → Bench) : (s.modBench b f).i3c = s.i3c := rfl
@[simp] theorem State.modBench_reports (b : Nat) (f : Bench → Bench) : (s.modBench b f).reports = s.reports := rfl
@[simp] theorem State.modBench_free (b : Nat) (f : Bench → Bench) : (s.modBench b f).free = s.free := rfl
@[simp] theorem State.modBench_pending (b : Nat) (f : Bench → Bench) : (s.modBench b f).pending = s.pending := rfl

@[simp] theorem State.modCc_tens (b : Nat) (f : Ctx → Ctx) : (s.modCc b f).tens = s.tens := rfl
@[simp] theorem State.modCc_dowels (b : Nat) (f : Ctx → Ctx) : (s.modCc b f).dowels = s.dowels := rfl
@[simp] theorem State.modCc_noc (b : Nat) (f : Ctx → Ctx) : (s.modCc b f).noc = s.noc := rfl
@[simp] theorem State.modCc_links (b : Nat) (f : Ctx → Ctx) : (s.modCc b f).links = s.links := rfl
@[simp] theorem State.modCc_ports (b : Nat) (f : Ctx → Ctx) : (s.modCc b f).ports = s.ports := rfl
@[simp] theorem State.modCc_host (b : Nat) (f : Ctx → Ctx) : (s.modCc b f).host = s.host := rfl
@[simp] theorem State.modCc_hpps (b : Nat) (f : Ctx → Ctx) : (s.modCc b f).hpps = s.hpps := rfl
@[simp] theorem State.modCc_veneer (b : Nat) (f : Ctx → Ctx) : (s.modCc b f).veneer = s.veneer := rfl
@[simp] theorem State.modCc_stroke (b : Nat) (f : Ctx → Ctx) : (s.modCc b f).stroke = s.stroke := rfl
@[simp] theorem State.modCc_dev (b : Nat) (f : Ctx → Ctx) : (s.modCc b f).dev = s.dev := rfl
@[simp] theorem State.modCc_cols (b : Nat) (f : Ctx → Ctx) : (s.modCc b f).cols = s.cols := rfl
@[simp] theorem State.modCc_glb (b : Nat) (f : Ctx → Ctx) : (s.modCc b f).glb = s.glb := rfl
@[simp] theorem State.modCc_foreman (b : Nat) (f : Ctx → Ctx) : (s.modCc b f).foreman = s.foreman := rfl
@[simp] theorem State.modCc_boot (b : Nat) (f : Ctx → Ctx) : (s.modCc b f).boot = s.boot := rfl
@[simp] theorem State.modCc_jtag (b : Nat) (f : Ctx → Ctx) : (s.modCc b f).jtag = s.jtag := rfl
@[simp] theorem State.modCc_i3c (b : Nat) (f : Ctx → Ctx) : (s.modCc b f).i3c = s.i3c := rfl
@[simp] theorem State.modCc_reports (b : Nat) (f : Ctx → Ctx) : (s.modCc b f).reports = s.reports := rfl
@[simp] theorem State.modCc_free (b : Nat) (f : Ctx → Ctx) : (s.modCc b f).free = s.free := rfl
@[simp] theorem State.modCc_pending (b : Nat) (f : Ctx → Ctx) : (s.modCc b f).pending = s.pending := rfl

@[simp] theorem State.setTen_benches (p : Nat) (v : Tenant) : (s.setTen p v).benches = s.benches := rfl
@[simp] theorem State.setTen_dowels (p : Nat) (v : Tenant) : (s.setTen p v).dowels = s.dowels := rfl
@[simp] theorem State.setTen_noc (p : Nat) (v : Tenant) : (s.setTen p v).noc = s.noc := rfl
@[simp] theorem State.setTen_links (p : Nat) (v : Tenant) : (s.setTen p v).links = s.links := rfl
@[simp] theorem State.setTen_ports (p : Nat) (v : Tenant) : (s.setTen p v).ports = s.ports := rfl
@[simp] theorem State.setTen_host (p : Nat) (v : Tenant) : (s.setTen p v).host = s.host := rfl
@[simp] theorem State.setTen_hpps (p : Nat) (v : Tenant) : (s.setTen p v).hpps = s.hpps := rfl
@[simp] theorem State.setTen_veneer (p : Nat) (v : Tenant) : (s.setTen p v).veneer = s.veneer := rfl
@[simp] theorem State.setTen_stroke (p : Nat) (v : Tenant) : (s.setTen p v).stroke = s.stroke := rfl
@[simp] theorem State.setTen_dev (p : Nat) (v : Tenant) : (s.setTen p v).dev = s.dev := rfl
@[simp] theorem State.setTen_cols (p : Nat) (v : Tenant) : (s.setTen p v).cols = s.cols := rfl
@[simp] theorem State.setTen_glb (p : Nat) (v : Tenant) : (s.setTen p v).glb = s.glb := rfl
@[simp] theorem State.setTen_foreman (p : Nat) (v : Tenant) : (s.setTen p v).foreman = s.foreman := rfl
@[simp] theorem State.setTen_boot (p : Nat) (v : Tenant) : (s.setTen p v).boot = s.boot := rfl
@[simp] theorem State.setTen_jtag (p : Nat) (v : Tenant) : (s.setTen p v).jtag = s.jtag := rfl
@[simp] theorem State.setTen_i3c (p : Nat) (v : Tenant) : (s.setTen p v).i3c = s.i3c := rfl
@[simp] theorem State.setTen_reports (p : Nat) (v : Tenant) : (s.setTen p v).reports = s.reports := rfl
@[simp] theorem State.setTen_free (p : Nat) (v : Tenant) : (s.setTen p v).free = s.free := rfl
@[simp] theorem State.setTen_pending (p : Nat) (v : Tenant) : (s.setTen p v).pending = s.pending := rfl

@[simp] theorem State.modTen_benches (p : Nat) (f : Tenant → Tenant) : (s.modTen p f).benches = s.benches := rfl
@[simp] theorem State.modTen_dowels (p : Nat) (f : Tenant → Tenant) : (s.modTen p f).dowels = s.dowels := rfl
@[simp] theorem State.modTen_noc (p : Nat) (f : Tenant → Tenant) : (s.modTen p f).noc = s.noc := rfl
@[simp] theorem State.modTen_links (p : Nat) (f : Tenant → Tenant) : (s.modTen p f).links = s.links := rfl
@[simp] theorem State.modTen_ports (p : Nat) (f : Tenant → Tenant) : (s.modTen p f).ports = s.ports := rfl
@[simp] theorem State.modTen_host (p : Nat) (f : Tenant → Tenant) : (s.modTen p f).host = s.host := rfl
@[simp] theorem State.modTen_hpps (p : Nat) (f : Tenant → Tenant) : (s.modTen p f).hpps = s.hpps := rfl
@[simp] theorem State.modTen_veneer (p : Nat) (f : Tenant → Tenant) : (s.modTen p f).veneer = s.veneer := rfl
@[simp] theorem State.modTen_stroke (p : Nat) (f : Tenant → Tenant) : (s.modTen p f).stroke = s.stroke := rfl
@[simp] theorem State.modTen_dev (p : Nat) (f : Tenant → Tenant) : (s.modTen p f).dev = s.dev := rfl
@[simp] theorem State.modTen_cols (p : Nat) (f : Tenant → Tenant) : (s.modTen p f).cols = s.cols := rfl
@[simp] theorem State.modTen_glb (p : Nat) (f : Tenant → Tenant) : (s.modTen p f).glb = s.glb := rfl
@[simp] theorem State.modTen_foreman (p : Nat) (f : Tenant → Tenant) : (s.modTen p f).foreman = s.foreman := rfl
@[simp] theorem State.modTen_boot (p : Nat) (f : Tenant → Tenant) : (s.modTen p f).boot = s.boot := rfl
@[simp] theorem State.modTen_jtag (p : Nat) (f : Tenant → Tenant) : (s.modTen p f).jtag = s.jtag := rfl
@[simp] theorem State.modTen_i3c (p : Nat) (f : Tenant → Tenant) : (s.modTen p f).i3c = s.i3c := rfl
@[simp] theorem State.modTen_reports (p : Nat) (f : Tenant → Tenant) : (s.modTen p f).reports = s.reports := rfl
@[simp] theorem State.modTen_free (p : Nat) (f : Tenant → Tenant) : (s.modTen p f).free = s.free := rfl
@[simp] theorem State.modTen_pending (p : Nat) (f : Tenant → Tenant) : (s.modTen p f).pending = s.pending := rfl

@[simp] theorem State.modDowel_benches (d : Nat) (f : Dowel → Dowel) : (s.modDowel d f).benches = s.benches := rfl
@[simp] theorem State.modDowel_tens (d : Nat) (f : Dowel → Dowel) : (s.modDowel d f).tens = s.tens := rfl
@[simp] theorem State.modDowel_noc (d : Nat) (f : Dowel → Dowel) : (s.modDowel d f).noc = s.noc := rfl
@[simp] theorem State.modDowel_links (d : Nat) (f : Dowel → Dowel) : (s.modDowel d f).links = s.links := rfl
@[simp] theorem State.modDowel_ports (d : Nat) (f : Dowel → Dowel) : (s.modDowel d f).ports = s.ports := rfl
@[simp] theorem State.modDowel_host (d : Nat) (f : Dowel → Dowel) : (s.modDowel d f).host = s.host := rfl
@[simp] theorem State.modDowel_hpps (d : Nat) (f : Dowel → Dowel) : (s.modDowel d f).hpps = s.hpps := rfl
@[simp] theorem State.modDowel_veneer (d : Nat) (f : Dowel → Dowel) : (s.modDowel d f).veneer = s.veneer := rfl
@[simp] theorem State.modDowel_stroke (d : Nat) (f : Dowel → Dowel) : (s.modDowel d f).stroke = s.stroke := rfl
@[simp] theorem State.modDowel_dev (d : Nat) (f : Dowel → Dowel) : (s.modDowel d f).dev = s.dev := rfl
@[simp] theorem State.modDowel_cols (d : Nat) (f : Dowel → Dowel) : (s.modDowel d f).cols = s.cols := rfl
@[simp] theorem State.modDowel_glb (d : Nat) (f : Dowel → Dowel) : (s.modDowel d f).glb = s.glb := rfl
@[simp] theorem State.modDowel_foreman (d : Nat) (f : Dowel → Dowel) : (s.modDowel d f).foreman = s.foreman := rfl
@[simp] theorem State.modDowel_boot (d : Nat) (f : Dowel → Dowel) : (s.modDowel d f).boot = s.boot := rfl
@[simp] theorem State.modDowel_jtag (d : Nat) (f : Dowel → Dowel) : (s.modDowel d f).jtag = s.jtag := rfl
@[simp] theorem State.modDowel_i3c (d : Nat) (f : Dowel → Dowel) : (s.modDowel d f).i3c = s.i3c := rfl
@[simp] theorem State.modDowel_reports (d : Nat) (f : Dowel → Dowel) : (s.modDowel d f).reports = s.reports := rfl
@[simp] theorem State.modDowel_free (d : Nat) (f : Dowel → Dowel) : (s.modDowel d f).free = s.free := rfl
@[simp] theorem State.modDowel_pending (d : Nat) (f : Dowel → Dowel) : (s.modDowel d f).pending = s.pending := rfl

@[simp] theorem State.modCol_benches (c : Nat) (f : Column → Column) : (s.modCol c f).benches = s.benches := rfl
@[simp] theorem State.modCol_tens (c : Nat) (f : Column → Column) : (s.modCol c f).tens = s.tens := rfl
@[simp] theorem State.modCol_dowels (c : Nat) (f : Column → Column) : (s.modCol c f).dowels = s.dowels := rfl
@[simp] theorem State.modCol_noc (c : Nat) (f : Column → Column) : (s.modCol c f).noc = s.noc := rfl
@[simp] theorem State.modCol_links (c : Nat) (f : Column → Column) : (s.modCol c f).links = s.links := rfl
@[simp] theorem State.modCol_ports (c : Nat) (f : Column → Column) : (s.modCol c f).ports = s.ports := rfl
@[simp] theorem State.modCol_host (c : Nat) (f : Column → Column) : (s.modCol c f).host = s.host := rfl
@[simp] theorem State.modCol_hpps (c : Nat) (f : Column → Column) : (s.modCol c f).hpps = s.hpps := rfl
@[simp] theorem State.modCol_veneer (c : Nat) (f : Column → Column) : (s.modCol c f).veneer = s.veneer := rfl
@[simp] theorem State.modCol_stroke (c : Nat) (f : Column → Column) : (s.modCol c f).stroke = s.stroke := rfl
@[simp] theorem State.modCol_dev (c : Nat) (f : Column → Column) : (s.modCol c f).dev = s.dev := rfl
@[simp] theorem State.modCol_glb (c : Nat) (f : Column → Column) : (s.modCol c f).glb = s.glb := rfl
@[simp] theorem State.modCol_foreman (c : Nat) (f : Column → Column) : (s.modCol c f).foreman = s.foreman := rfl
@[simp] theorem State.modCol_boot (c : Nat) (f : Column → Column) : (s.modCol c f).boot = s.boot := rfl
@[simp] theorem State.modCol_jtag (c : Nat) (f : Column → Column) : (s.modCol c f).jtag = s.jtag := rfl
@[simp] theorem State.modCol_i3c (c : Nat) (f : Column → Column) : (s.modCol c f).i3c = s.i3c := rfl
@[simp] theorem State.modCol_reports (c : Nat) (f : Column → Column) : (s.modCol c f).reports = s.reports := rfl
@[simp] theorem State.modCol_free (c : Nat) (f : Column → Column) : (s.modCol c f).free = s.free := rfl
@[simp] theorem State.modCol_pending (c : Nat) (f : Column → Column) : (s.modCol c f).pending = s.pending := rfl

@[simp] theorem State.modPort_benches (p : Nat) (f : Port → Port) : (s.modPort p f).benches = s.benches := rfl
@[simp] theorem State.modPort_tens (p : Nat) (f : Port → Port) : (s.modPort p f).tens = s.tens := rfl
@[simp] theorem State.modPort_dowels (p : Nat) (f : Port → Port) : (s.modPort p f).dowels = s.dowels := rfl
@[simp] theorem State.modPort_noc (p : Nat) (f : Port → Port) : (s.modPort p f).noc = s.noc := rfl
@[simp] theorem State.modPort_links (p : Nat) (f : Port → Port) : (s.modPort p f).links = s.links := rfl
@[simp] theorem State.modPort_host (p : Nat) (f : Port → Port) : (s.modPort p f).host = s.host := rfl
@[simp] theorem State.modPort_hpps (p : Nat) (f : Port → Port) : (s.modPort p f).hpps = s.hpps := rfl
@[simp] theorem State.modPort_veneer (p : Nat) (f : Port → Port) : (s.modPort p f).veneer = s.veneer := rfl
@[simp] theorem State.modPort_stroke (p : Nat) (f : Port → Port) : (s.modPort p f).stroke = s.stroke := rfl
@[simp] theorem State.modPort_dev (p : Nat) (f : Port → Port) : (s.modPort p f).dev = s.dev := rfl
@[simp] theorem State.modPort_cols (p : Nat) (f : Port → Port) : (s.modPort p f).cols = s.cols := rfl
@[simp] theorem State.modPort_glb (p : Nat) (f : Port → Port) : (s.modPort p f).glb = s.glb := rfl
@[simp] theorem State.modPort_foreman (p : Nat) (f : Port → Port) : (s.modPort p f).foreman = s.foreman := rfl
@[simp] theorem State.modPort_boot (p : Nat) (f : Port → Port) : (s.modPort p f).boot = s.boot := rfl
@[simp] theorem State.modPort_jtag (p : Nat) (f : Port → Port) : (s.modPort p f).jtag = s.jtag := rfl
@[simp] theorem State.modPort_i3c (p : Nat) (f : Port → Port) : (s.modPort p f).i3c = s.i3c := rfl
@[simp] theorem State.modPort_reports (p : Nat) (f : Port → Port) : (s.modPort p f).reports = s.reports := rfl
@[simp] theorem State.modPort_free (p : Nat) (f : Port → Port) : (s.modPort p f).free = s.free := rfl
@[simp] theorem State.modPort_pending (p : Nat) (f : Port → Port) : (s.modPort p f).pending = s.pending := rfl

@[simp] theorem State.modHpp_benches (m : Nat) (f : Hpp → Hpp) : (s.modHpp m f).benches = s.benches := rfl
@[simp] theorem State.modHpp_tens (m : Nat) (f : Hpp → Hpp) : (s.modHpp m f).tens = s.tens := rfl
@[simp] theorem State.modHpp_dowels (m : Nat) (f : Hpp → Hpp) : (s.modHpp m f).dowels = s.dowels := rfl
@[simp] theorem State.modHpp_noc (m : Nat) (f : Hpp → Hpp) : (s.modHpp m f).noc = s.noc := rfl
@[simp] theorem State.modHpp_links (m : Nat) (f : Hpp → Hpp) : (s.modHpp m f).links = s.links := rfl
@[simp] theorem State.modHpp_ports (m : Nat) (f : Hpp → Hpp) : (s.modHpp m f).ports = s.ports := rfl
@[simp] theorem State.modHpp_host (m : Nat) (f : Hpp → Hpp) : (s.modHpp m f).host = s.host := rfl
@[simp] theorem State.modHpp_veneer (m : Nat) (f : Hpp → Hpp) : (s.modHpp m f).veneer = s.veneer := rfl
@[simp] theorem State.modHpp_stroke (m : Nat) (f : Hpp → Hpp) : (s.modHpp m f).stroke = s.stroke := rfl
@[simp] theorem State.modHpp_dev (m : Nat) (f : Hpp → Hpp) : (s.modHpp m f).dev = s.dev := rfl
@[simp] theorem State.modHpp_cols (m : Nat) (f : Hpp → Hpp) : (s.modHpp m f).cols = s.cols := rfl
@[simp] theorem State.modHpp_glb (m : Nat) (f : Hpp → Hpp) : (s.modHpp m f).glb = s.glb := rfl
@[simp] theorem State.modHpp_foreman (m : Nat) (f : Hpp → Hpp) : (s.modHpp m f).foreman = s.foreman := rfl
@[simp] theorem State.modHpp_boot (m : Nat) (f : Hpp → Hpp) : (s.modHpp m f).boot = s.boot := rfl
@[simp] theorem State.modHpp_jtag (m : Nat) (f : Hpp → Hpp) : (s.modHpp m f).jtag = s.jtag := rfl
@[simp] theorem State.modHpp_i3c (m : Nat) (f : Hpp → Hpp) : (s.modHpp m f).i3c = s.i3c := rfl
@[simp] theorem State.modHpp_reports (m : Nat) (f : Hpp → Hpp) : (s.modHpp m f).reports = s.reports := rfl
@[simp] theorem State.modHpp_free (m : Nat) (f : Hpp → Hpp) : (s.modHpp m f).free = s.free := rfl
@[simp] theorem State.modHpp_pending (m : Nat) (f : Hpp → Hpp) : (s.modHpp m f).pending = s.pending := rfl

@[simp] theorem State.modStroke_benches (f : Stroke → Stroke) : (s.modStroke f).benches = s.benches := rfl
@[simp] theorem State.modStroke_tens (f : Stroke → Stroke) : (s.modStroke f).tens = s.tens := rfl
@[simp] theorem State.modStroke_dowels (f : Stroke → Stroke) : (s.modStroke f).dowels = s.dowels := rfl
@[simp] theorem State.modStroke_noc (f : Stroke → Stroke) : (s.modStroke f).noc = s.noc := rfl
@[simp] theorem State.modStroke_links (f : Stroke → Stroke) : (s.modStroke f).links = s.links := rfl
@[simp] theorem State.modStroke_ports (f : Stroke → Stroke) : (s.modStroke f).ports = s.ports := rfl
@[simp] theorem State.modStroke_host (f : Stroke → Stroke) : (s.modStroke f).host = s.host := rfl
@[simp] theorem State.modStroke_hpps (f : Stroke → Stroke) : (s.modStroke f).hpps = s.hpps := rfl
@[simp] theorem State.modStroke_veneer (f : Stroke → Stroke) : (s.modStroke f).veneer = s.veneer := rfl
@[simp] theorem State.modStroke_dev (f : Stroke → Stroke) : (s.modStroke f).dev = s.dev := rfl
@[simp] theorem State.modStroke_cols (f : Stroke → Stroke) : (s.modStroke f).cols = s.cols := rfl
@[simp] theorem State.modStroke_glb (f : Stroke → Stroke) : (s.modStroke f).glb = s.glb := rfl
@[simp] theorem State.modStroke_foreman (f : Stroke → Stroke) : (s.modStroke f).foreman = s.foreman := rfl
@[simp] theorem State.modStroke_boot (f : Stroke → Stroke) : (s.modStroke f).boot = s.boot := rfl
@[simp] theorem State.modStroke_jtag (f : Stroke → Stroke) : (s.modStroke f).jtag = s.jtag := rfl
@[simp] theorem State.modStroke_i3c (f : Stroke → Stroke) : (s.modStroke f).i3c = s.i3c := rfl
@[simp] theorem State.modStroke_reports (f : Stroke → Stroke) : (s.modStroke f).reports = s.reports := rfl
@[simp] theorem State.modStroke_free (f : Stroke → Stroke) : (s.modStroke f).free = s.free := rfl
@[simp] theorem State.modStroke_pending (f : Stroke → Stroke) : (s.modStroke f).pending = s.pending := rfl

@[simp] theorem State.report_benches (r : Report) : (s.report r).benches = s.benches := rfl
@[simp] theorem State.report_tens (r : Report) : (s.report r).tens = s.tens := rfl
@[simp] theorem State.report_dowels (r : Report) : (s.report r).dowels = s.dowels := rfl
@[simp] theorem State.report_noc (r : Report) : (s.report r).noc = s.noc := rfl
@[simp] theorem State.report_links (r : Report) : (s.report r).links = s.links := rfl
@[simp] theorem State.report_ports (r : Report) : (s.report r).ports = s.ports := rfl
@[simp] theorem State.report_host (r : Report) : (s.report r).host = s.host := rfl
@[simp] theorem State.report_hpps (r : Report) : (s.report r).hpps = s.hpps := rfl
@[simp] theorem State.report_veneer (r : Report) : (s.report r).veneer = s.veneer := rfl
@[simp] theorem State.report_stroke (r : Report) : (s.report r).stroke = s.stroke := rfl
@[simp] theorem State.report_dev (r : Report) : (s.report r).dev = s.dev := rfl
@[simp] theorem State.report_cols (r : Report) : (s.report r).cols = s.cols := rfl
@[simp] theorem State.report_glb (r : Report) : (s.report r).glb = s.glb := rfl
@[simp] theorem State.report_foreman (r : Report) : (s.report r).foreman = s.foreman := rfl
@[simp] theorem State.report_boot (r : Report) : (s.report r).boot = s.boot := rfl
@[simp] theorem State.report_jtag (r : Report) : (s.report r).jtag = s.jtag := rfl
@[simp] theorem State.report_i3c (r : Report) : (s.report r).i3c = s.i3c := rfl
@[simp] theorem State.report_free (r : Report) : (s.report r).free = s.free := rfl
@[simp] theorem State.report_pending (r : Report) : (s.report r).pending = s.pending := rfl

@[simp] theorem State.tally_tens (b : Nat) : (s.tally b).tens = s.tens := rfl
@[simp] theorem State.tally_dowels (b : Nat) : (s.tally b).dowels = s.dowels := rfl
@[simp] theorem State.tally_noc (b : Nat) : (s.tally b).noc = s.noc := rfl
@[simp] theorem State.tally_links (b : Nat) : (s.tally b).links = s.links := rfl
@[simp] theorem State.tally_ports (b : Nat) : (s.tally b).ports = s.ports := rfl
@[simp] theorem State.tally_host (b : Nat) : (s.tally b).host = s.host := rfl
@[simp] theorem State.tally_hpps (b : Nat) : (s.tally b).hpps = s.hpps := rfl
@[simp] theorem State.tally_veneer (b : Nat) : (s.tally b).veneer = s.veneer := rfl
@[simp] theorem State.tally_stroke (b : Nat) : (s.tally b).stroke = s.stroke := rfl
@[simp] theorem State.tally_dev (b : Nat) : (s.tally b).dev = s.dev := rfl
@[simp] theorem State.tally_cols (b : Nat) : (s.tally b).cols = s.cols := rfl
@[simp] theorem State.tally_glb (b : Nat) : (s.tally b).glb = s.glb := rfl
@[simp] theorem State.tally_foreman (b : Nat) : (s.tally b).foreman = s.foreman := rfl
@[simp] theorem State.tally_boot (b : Nat) : (s.tally b).boot = s.boot := rfl
@[simp] theorem State.tally_jtag (b : Nat) : (s.tally b).jtag = s.jtag := rfl
@[simp] theorem State.tally_i3c (b : Nat) : (s.tally b).i3c = s.i3c := rfl
@[simp] theorem State.tally_reports (b : Nat) : (s.tally b).reports = s.reports := rfl
@[simp] theorem State.tally_free (b : Nat) : (s.tally b).free = s.free := rfl
@[simp] theorem State.tally_pending (b : Nat) : (s.tally b).pending = s.pending := rfl

@[simp] theorem State.setBench_ten (b : Nat) (v : Bench) (k : Nat) : (s.setBench b v).ten k = s.ten k := rfl
@[simp] theorem State.setBench_dowel (b : Nat) (v : Bench) (k : Nat) : (s.setBench b v).dowel k = s.dowel k := rfl
@[simp] theorem State.setBench_col (b : Nat) (v : Bench) (k : Nat) : (s.setBench b v).col k = s.col k := rfl
@[simp] theorem State.setBench_port (b : Nat) (v : Bench) (k : Nat) : (s.setBench b v).port k = s.port k := rfl
@[simp] theorem State.setBench_hpp (b : Nat) (v : Bench) (k : Nat) : (s.setBench b v).hpp k = s.hpp k := rfl

@[simp] theorem State.modBench_ten (b : Nat) (f : Bench → Bench) (k : Nat) : (s.modBench b f).ten k = s.ten k := rfl
@[simp] theorem State.modBench_dowel (b : Nat) (f : Bench → Bench) (k : Nat) : (s.modBench b f).dowel k = s.dowel k := rfl
@[simp] theorem State.modBench_col (b : Nat) (f : Bench → Bench) (k : Nat) : (s.modBench b f).col k = s.col k := rfl
@[simp] theorem State.modBench_port (b : Nat) (f : Bench → Bench) (k : Nat) : (s.modBench b f).port k = s.port k := rfl
@[simp] theorem State.modBench_hpp (b : Nat) (f : Bench → Bench) (k : Nat) : (s.modBench b f).hpp k = s.hpp k := rfl

@[simp] theorem State.modCc_ten (b : Nat) (f : Ctx → Ctx) (k : Nat) : (s.modCc b f).ten k = s.ten k := rfl
@[simp] theorem State.modCc_dowel (b : Nat) (f : Ctx → Ctx) (k : Nat) : (s.modCc b f).dowel k = s.dowel k := rfl
@[simp] theorem State.modCc_col (b : Nat) (f : Ctx → Ctx) (k : Nat) : (s.modCc b f).col k = s.col k := rfl
@[simp] theorem State.modCc_port (b : Nat) (f : Ctx → Ctx) (k : Nat) : (s.modCc b f).port k = s.port k := rfl
@[simp] theorem State.modCc_hpp (b : Nat) (f : Ctx → Ctx) (k : Nat) : (s.modCc b f).hpp k = s.hpp k := rfl

@[simp] theorem State.setTen_bench (p : Nat) (v : Tenant) (k : Nat) : (s.setTen p v).bench k = s.bench k := rfl
@[simp] theorem State.setTen_dowel (p : Nat) (v : Tenant) (k : Nat) : (s.setTen p v).dowel k = s.dowel k := rfl
@[simp] theorem State.setTen_col (p : Nat) (v : Tenant) (k : Nat) : (s.setTen p v).col k = s.col k := rfl
@[simp] theorem State.setTen_port (p : Nat) (v : Tenant) (k : Nat) : (s.setTen p v).port k = s.port k := rfl
@[simp] theorem State.setTen_hpp (p : Nat) (v : Tenant) (k : Nat) : (s.setTen p v).hpp k = s.hpp k := rfl

@[simp] theorem State.modTen_bench (p : Nat) (f : Tenant → Tenant) (k : Nat) : (s.modTen p f).bench k = s.bench k := rfl
@[simp] theorem State.modTen_dowel (p : Nat) (f : Tenant → Tenant) (k : Nat) : (s.modTen p f).dowel k = s.dowel k := rfl
@[simp] theorem State.modTen_col (p : Nat) (f : Tenant → Tenant) (k : Nat) : (s.modTen p f).col k = s.col k := rfl
@[simp] theorem State.modTen_port (p : Nat) (f : Tenant → Tenant) (k : Nat) : (s.modTen p f).port k = s.port k := rfl
@[simp] theorem State.modTen_hpp (p : Nat) (f : Tenant → Tenant) (k : Nat) : (s.modTen p f).hpp k = s.hpp k := rfl

@[simp] theorem State.modDowel_bench (d : Nat) (f : Dowel → Dowel) (k : Nat) : (s.modDowel d f).bench k = s.bench k := rfl
@[simp] theorem State.modDowel_ten (d : Nat) (f : Dowel → Dowel) (k : Nat) : (s.modDowel d f).ten k = s.ten k := rfl
@[simp] theorem State.modDowel_col (d : Nat) (f : Dowel → Dowel) (k : Nat) : (s.modDowel d f).col k = s.col k := rfl
@[simp] theorem State.modDowel_port (d : Nat) (f : Dowel → Dowel) (k : Nat) : (s.modDowel d f).port k = s.port k := rfl
@[simp] theorem State.modDowel_hpp (d : Nat) (f : Dowel → Dowel) (k : Nat) : (s.modDowel d f).hpp k = s.hpp k := rfl

@[simp] theorem State.modCol_bench (c : Nat) (f : Column → Column) (k : Nat) : (s.modCol c f).bench k = s.bench k := rfl
@[simp] theorem State.modCol_ten (c : Nat) (f : Column → Column) (k : Nat) : (s.modCol c f).ten k = s.ten k := rfl
@[simp] theorem State.modCol_dowel (c : Nat) (f : Column → Column) (k : Nat) : (s.modCol c f).dowel k = s.dowel k := rfl
@[simp] theorem State.modCol_port (c : Nat) (f : Column → Column) (k : Nat) : (s.modCol c f).port k = s.port k := rfl
@[simp] theorem State.modCol_hpp (c : Nat) (f : Column → Column) (k : Nat) : (s.modCol c f).hpp k = s.hpp k := rfl

@[simp] theorem State.modPort_bench (p : Nat) (f : Port → Port) (k : Nat) : (s.modPort p f).bench k = s.bench k := rfl
@[simp] theorem State.modPort_ten (p : Nat) (f : Port → Port) (k : Nat) : (s.modPort p f).ten k = s.ten k := rfl
@[simp] theorem State.modPort_dowel (p : Nat) (f : Port → Port) (k : Nat) : (s.modPort p f).dowel k = s.dowel k := rfl
@[simp] theorem State.modPort_col (p : Nat) (f : Port → Port) (k : Nat) : (s.modPort p f).col k = s.col k := rfl
@[simp] theorem State.modPort_hpp (p : Nat) (f : Port → Port) (k : Nat) : (s.modPort p f).hpp k = s.hpp k := rfl

@[simp] theorem State.modHpp_bench (m : Nat) (f : Hpp → Hpp) (k : Nat) : (s.modHpp m f).bench k = s.bench k := rfl
@[simp] theorem State.modHpp_ten (m : Nat) (f : Hpp → Hpp) (k : Nat) : (s.modHpp m f).ten k = s.ten k := rfl
@[simp] theorem State.modHpp_dowel (m : Nat) (f : Hpp → Hpp) (k : Nat) : (s.modHpp m f).dowel k = s.dowel k := rfl
@[simp] theorem State.modHpp_col (m : Nat) (f : Hpp → Hpp) (k : Nat) : (s.modHpp m f).col k = s.col k := rfl
@[simp] theorem State.modHpp_port (m : Nat) (f : Hpp → Hpp) (k : Nat) : (s.modHpp m f).port k = s.port k := rfl

@[simp] theorem State.modStroke_bench (f : Stroke → Stroke) (k : Nat) : (s.modStroke f).bench k = s.bench k := rfl
@[simp] theorem State.modStroke_ten (f : Stroke → Stroke) (k : Nat) : (s.modStroke f).ten k = s.ten k := rfl
@[simp] theorem State.modStroke_dowel (f : Stroke → Stroke) (k : Nat) : (s.modStroke f).dowel k = s.dowel k := rfl
@[simp] theorem State.modStroke_col (f : Stroke → Stroke) (k : Nat) : (s.modStroke f).col k = s.col k := rfl
@[simp] theorem State.modStroke_port (f : Stroke → Stroke) (k : Nat) : (s.modStroke f).port k = s.port k := rfl
@[simp] theorem State.modStroke_hpp (f : Stroke → Stroke) (k : Nat) : (s.modStroke f).hpp k = s.hpp k := rfl

@[simp] theorem State.report_bench (r : Report) (k : Nat) : (s.report r).bench k = s.bench k := rfl
@[simp] theorem State.report_ten (r : Report) (k : Nat) : (s.report r).ten k = s.ten k := rfl
@[simp] theorem State.report_dowel (r : Report) (k : Nat) : (s.report r).dowel k = s.dowel k := rfl
@[simp] theorem State.report_col (r : Report) (k : Nat) : (s.report r).col k = s.col k := rfl
@[simp] theorem State.report_port (r : Report) (k : Nat) : (s.report r).port k = s.port k := rfl
@[simp] theorem State.report_hpp (r : Report) (k : Nat) : (s.report r).hpp k = s.hpp k := rfl

@[simp] theorem State.tally_ten (b : Nat) (k : Nat) : (s.tally b).ten k = s.ten k := rfl
@[simp] theorem State.tally_dowel (b : Nat) (k : Nat) : (s.tally b).dowel k = s.dowel k := rfl
@[simp] theorem State.tally_col (b : Nat) (k : Nat) : (s.tally b).col k = s.col k := rfl
@[simp] theorem State.tally_port (b : Nat) (k : Nat) : (s.tally b).port k = s.port k := rfl
@[simp] theorem State.tally_hpp (b : Nat) (k : Nat) : (s.tally b).hpp k = s.hpp k := rfl

/-! ### Reading back -/

@[simp] theorem State.bench_setBench_same (b : Nat) (v : Bench) : (s.setBench b v).bench b = v := tget_tset_same ..
theorem State.bench_setBench (b c : Nat) (v : Bench) : (s.setBench b v).bench c = if c = b then v else s.bench c := tget_tset ..
@[simp] theorem State.bench_modBench_same (b : Nat) (f : Bench → Bench) : (s.modBench b f).bench b = f (s.bench b) := tget_tset_same ..
theorem State.bench_modBench (b c : Nat) (f : Bench → Bench) :
    (s.modBench b f).bench c = if c = b then f (s.bench b) else s.bench c := tget_tset ..
@[simp] theorem State.ten_setTen_same (p : Nat) (v : Tenant) : (s.setTen p v).ten p = v := tget_tset_same ..
theorem State.ten_setTen (p q : Nat) (v : Tenant) : (s.setTen p v).ten q = if q = p then v else s.ten q := tget_tset ..
@[simp] theorem State.ten_modTen_same (p : Nat) (f : Tenant → Tenant) : (s.modTen p f).ten p = f (s.ten p) := tget_tset_same ..
theorem State.ten_modTen (p q : Nat) (f : Tenant → Tenant) :
    (s.modTen p f).ten q = if q = p then f (s.ten p) else s.ten q := tget_tset ..
theorem State.dowel_modDowel (d e : Nat) (f : Dowel → Dowel) :
    (s.modDowel d f).dowel e = if e = d then f (s.dowel d) else s.dowel e := tget_tset ..
@[simp] theorem State.dowel_modDowel_same (d : Nat) (f : Dowel → Dowel) : (s.modDowel d f).dowel d = f (s.dowel d) := tget_tset_same ..
theorem State.col_modCol (c d : Nat) (f : Column → Column) :
    (s.modCol c f).col d = if d = c then f (s.col c) else s.col d := tget_tset ..
@[simp] theorem State.col_modCol_same (c : Nat) (f : Column → Column) : (s.modCol c f).col c = f (s.col c) := tget_tset_same ..
theorem State.port_modPort (p q : Nat) (f : Port → Port) :
    (s.modPort p f).port q = if q = p then f (s.port p) else s.port q := tget_tset ..
@[simp] theorem State.port_modPort_same (p : Nat) (f : Port → Port) : (s.modPort p f).port p = f (s.port p) := tget_tset_same ..
theorem State.hpp_modHpp (m n : Nat) (f : Hpp → Hpp) :
    (s.modHpp m f).hpp n = if n = m then f (s.hpp m) else s.hpp n := tget_tset ..
@[simp] theorem State.hpp_modHpp_same (m : Nat) (f : Hpp → Hpp) : (s.modHpp m f).hpp m = f (s.hpp m) := tget_tset_same ..
@[simp] theorem State.stroke_modStroke (f : Stroke → Stroke) : (s.modStroke f).stroke = f s.stroke := rfl
@[simp] theorem State.reports_report (r : Report) : (s.report r).reports = s.reports ++ [r] := rfl

/-! ### Benches -/

variable (v : Bench)

@[simp] theorem Bench.setCtx_cur (n : Nat) (c : Ctx) : (v.setCtx n c).cur = v.cur := rfl
@[simp] theorem Bench.setCtx_last (n : Nat) (c : Ctx) : (v.setCtx n c).last = v.last := rfl
@[simp] theorem Bench.setCtx_switched (n : Nat) (c : Ctx) : (v.setCtx n c).switched = v.switched := rfl
@[simp] theorem Bench.setCtx_jvec (n : Nat) (c : Ctx) : (v.setCtx n c).jvec = v.jvec := rfl
@[simp] theorem Bench.setCtx_jsvec (n : Nat) (c : Ctx) : (v.setCtx n c).jsvec = v.jsvec := rfl
@[simp] theorem Bench.setCtx_jipend (n : Nat) (c : Ctx) : (v.setCtx n c).jipend = v.jipend := rfl
@[simp] theorem Bench.setCtx_patch (n : Nat) (c : Ctx) : (v.setCtx n c).patch = v.patch := rfl
@[simp] theorem Bench.setCtx_pred (n : Nat) (c : Ctx) : (v.setCtx n c).pred = v.pred := rfl
@[simp] theorem Bench.setCtx_flight (n : Nat) (c : Ctx) : (v.setCtx n c).flight = v.flight := rfl
@[simp] theorem Bench.setCtx_nextLoad (n : Nat) (c : Ctx) : (v.setCtx n c).nextLoad = v.nextLoad := rfl
@[simp] theorem Bench.setCtx_spec (n : Nat) (c : Ctx) : (v.setCtx n c).spec = v.spec := rfl
@[simp] theorem Bench.setCtx_boards (n : Nat) (c : Ctx) : (v.setCtx n c).boards = v.boards := rfl
@[simp] theorem Bench.setCtx_glue (n : Nat) (c : Ctx) : (v.setCtx n c).glue = v.glue := rfl
@[simp] theorem Bench.setCtx_slots (n : Nat) (c : Ctx) : (v.setCtx n c).slots = v.slots := rfl
@[simp] theorem Bench.setCtx_applied (n : Nat) (c : Ctx) : (v.setCtx n c).applied = v.applied := rfl
@[simp] theorem Bench.setCtx_drawer (n : Nat) (c : Ctx) : (v.setCtx n c).drawer = v.drawer := rfl
@[simp] theorem Bench.setCtx_idrawer (n : Nat) (c : Ctx) : (v.setCtx n c).idrawer = v.idrawer := rfl
@[simp] theorem Bench.setCtx_ecc (n : Nat) (c : Ctx) : (v.setCtx n c).ecc = v.ecc := rfl
@[simp] theorem Bench.setCtx_stuck (n : Nat) (c : Ctx) : (v.setCtx n c).stuck = v.stuck := rfl
@[simp] theorem Bench.setCtx_scrubQ (n : Nat) (c : Ctx) : (v.setCtx n c).scrubQ = v.scrubQ := rfl
@[simp] theorem Bench.setCtx_scrubAt (n : Nat) (c : Ctx) : (v.setCtx n c).scrubAt = v.scrubAt := rfl
@[simp] theorem Bench.setCtx_scrubRow (n : Nat) (c : Ctx) : (v.setCtx n c).scrubRow = v.scrubRow := rfl
@[simp] theorem Bench.setCtx_corrN (n : Nat) (c : Ctx) : (v.setCtx n c).corrN = v.corrN := rfl
@[simp] theorem Bench.setCtx_corrAt (n : Nat) (c : Ctx) : (v.setCtx n c).corrAt = v.corrAt := rfl
@[simp] theorem Bench.setCtx_mailbox (n : Nat) (c : Ctx) : (v.setCtx n c).mailbox = v.mailbox := rfl
@[simp] theorem Bench.setCtx_mailAt (n : Nat) (c : Ctx) : (v.setCtx n c).mailAt = v.mailAt := rfl
@[simp] theorem Bench.setCtx_unseen (n : Nat) (c : Ctx) : (v.setCtx n c).unseen = v.unseen := rfl
@[simp] theorem Bench.setCtx_racks (n : Nat) (c : Ctx) : (v.setCtx n c).racks = v.racks := rfl
@[simp] theorem Bench.setCtx_tags (n : Nat) (c : Ctx) : (v.setCtx n c).tags = v.tags := rfl
@[simp] theorem Bench.setCtx_streams (n : Nat) (c : Ctx) : (v.setCtx n c).streams = v.streams := rfl
@[simp] theorem Bench.setCtx_xfers (n : Nat) (c : Ctx) : (v.setCtx n c).xfers = v.xfers := rfl
@[simp] theorem Bench.setCtx_msgQ (n : Nat) (c : Ctx) : (v.setCtx n c).msgQ = v.msgQ := rfl
@[simp] theorem Bench.setCtx_nextStream (n : Nat) (c : Ctx) : (v.setCtx n c).nextStream = v.nextStream := rfl
@[simp] theorem Bench.setCtx_nextXfer (n : Nat) (c : Ctx) : (v.setCtx n c).nextXfer = v.nextXfer := rfl
@[simp] theorem Bench.setCtx_lastIssued (n : Nat) (c : Ctx) : (v.setCtx n c).lastIssued = v.lastIssued := rfl
@[simp] theorem Bench.setCtx_splitUsed (n : Nat) (c : Ctx) : (v.setCtx n c).splitUsed = v.splitUsed := rfl
@[simp] theorem Bench.setCtx_round (n : Nat) (c : Ctx) : (v.setCtx n c).round = v.round := rfl
@[simp] theorem Bench.setCtx_badFabric (n : Nat) (c : Ctx) : (v.setCtx n c).badFabric = v.badFabric := rfl
@[simp] theorem Bench.setCtx_badTranspose (n : Nat) (c : Ctx) : (v.setCtx n c).badTranspose = v.badTranspose := rfl
@[simp] theorem Bench.setCtx_badSolver (n : Nat) (c : Ctx) : (v.setCtx n c).badSolver = v.badSolver := rfl
@[simp] theorem Bench.setCtx_draining (n : Nat) (c : Ctx) : (v.setCtx n c).draining = v.draining := rfl
@[simp] theorem Bench.setCtx_clearing (n : Nat) (c : Ctx) : (v.setCtx n c).clearing = v.clearing := rfl
@[simp] theorem Bench.setCtx_plane (n : Nat) (c : Ctx) : (v.setCtx n c).plane = v.plane := rfl
@[simp] theorem Bench.setCtx_planeOk (n : Nat) (c : Ctx) : (v.setCtx n c).planeOk = v.planeOk := rfl
@[simp] theorem Bench.setCtx_lockAt (n : Nat) (c : Ctx) : (v.setCtx n c).lockAt = v.lockAt := rfl
@[simp] theorem Bench.setCtx_uncorAt (n : Nat) (c : Ctx) : (v.setCtx n c).uncorAt = v.uncorAt := rfl
@[simp] theorem Bench.setCtx_sumAt (n : Nat) (c : Ctx) : (v.setCtx n c).sumAt = v.sumAt := rfl
@[simp] theorem Bench.setCtx_retireIn (n : Nat) (c : Ctx) : (v.setCtx n c).retireIn = v.retireIn := rfl
@[simp] theorem Bench.setCtx_cancelIn (n : Nat) (c : Ctx) : (v.setCtx n c).cancelIn = v.cancelIn := rfl
@[simp] theorem Bench.setCtx_leaving (n : Nat) (c : Ctx) : (v.setCtx n c).leaving = v.leaving := rfl
@[simp] theorem Bench.setCtx_slackAt (n : Nat) (c : Ctx) : (v.setCtx n c).slackAt = v.slackAt := rfl
@[simp] theorem Bench.setCtx_issued (n : Nat) (c : Ctx) : (v.setCtx n c).issued = v.issued := rfl

@[simp] theorem Bench.modCtx_cur (n : Nat) (f : Ctx → Ctx) : (v.modCtx n f).cur = v.cur := rfl
@[simp] theorem Bench.modCtx_last (n : Nat) (f : Ctx → Ctx) : (v.modCtx n f).last = v.last := rfl
@[simp] theorem Bench.modCtx_switched (n : Nat) (f : Ctx → Ctx) : (v.modCtx n f).switched = v.switched := rfl
@[simp] theorem Bench.modCtx_jvec (n : Nat) (f : Ctx → Ctx) : (v.modCtx n f).jvec = v.jvec := rfl
@[simp] theorem Bench.modCtx_jsvec (n : Nat) (f : Ctx → Ctx) : (v.modCtx n f).jsvec = v.jsvec := rfl
@[simp] theorem Bench.modCtx_jipend (n : Nat) (f : Ctx → Ctx) : (v.modCtx n f).jipend = v.jipend := rfl
@[simp] theorem Bench.modCtx_patch (n : Nat) (f : Ctx → Ctx) : (v.modCtx n f).patch = v.patch := rfl
@[simp] theorem Bench.modCtx_pred (n : Nat) (f : Ctx → Ctx) : (v.modCtx n f).pred = v.pred := rfl
@[simp] theorem Bench.modCtx_flight (n : Nat) (f : Ctx → Ctx) : (v.modCtx n f).flight = v.flight := rfl
@[simp] theorem Bench.modCtx_nextLoad (n : Nat) (f : Ctx → Ctx) : (v.modCtx n f).nextLoad = v.nextLoad := rfl
@[simp] theorem Bench.modCtx_spec (n : Nat) (f : Ctx → Ctx) : (v.modCtx n f).spec = v.spec := rfl
@[simp] theorem Bench.modCtx_boards (n : Nat) (f : Ctx → Ctx) : (v.modCtx n f).boards = v.boards := rfl
@[simp] theorem Bench.modCtx_glue (n : Nat) (f : Ctx → Ctx) : (v.modCtx n f).glue = v.glue := rfl
@[simp] theorem Bench.modCtx_slots (n : Nat) (f : Ctx → Ctx) : (v.modCtx n f).slots = v.slots := rfl
@[simp] theorem Bench.modCtx_applied (n : Nat) (f : Ctx → Ctx) : (v.modCtx n f).applied = v.applied := rfl
@[simp] theorem Bench.modCtx_drawer (n : Nat) (f : Ctx → Ctx) : (v.modCtx n f).drawer = v.drawer := rfl
@[simp] theorem Bench.modCtx_idrawer (n : Nat) (f : Ctx → Ctx) : (v.modCtx n f).idrawer = v.idrawer := rfl
@[simp] theorem Bench.modCtx_ecc (n : Nat) (f : Ctx → Ctx) : (v.modCtx n f).ecc = v.ecc := rfl
@[simp] theorem Bench.modCtx_stuck (n : Nat) (f : Ctx → Ctx) : (v.modCtx n f).stuck = v.stuck := rfl
@[simp] theorem Bench.modCtx_scrubQ (n : Nat) (f : Ctx → Ctx) : (v.modCtx n f).scrubQ = v.scrubQ := rfl
@[simp] theorem Bench.modCtx_scrubAt (n : Nat) (f : Ctx → Ctx) : (v.modCtx n f).scrubAt = v.scrubAt := rfl
@[simp] theorem Bench.modCtx_scrubRow (n : Nat) (f : Ctx → Ctx) : (v.modCtx n f).scrubRow = v.scrubRow := rfl
@[simp] theorem Bench.modCtx_corrN (n : Nat) (f : Ctx → Ctx) : (v.modCtx n f).corrN = v.corrN := rfl
@[simp] theorem Bench.modCtx_corrAt (n : Nat) (f : Ctx → Ctx) : (v.modCtx n f).corrAt = v.corrAt := rfl
@[simp] theorem Bench.modCtx_mailbox (n : Nat) (f : Ctx → Ctx) : (v.modCtx n f).mailbox = v.mailbox := rfl
@[simp] theorem Bench.modCtx_mailAt (n : Nat) (f : Ctx → Ctx) : (v.modCtx n f).mailAt = v.mailAt := rfl
@[simp] theorem Bench.modCtx_unseen (n : Nat) (f : Ctx → Ctx) : (v.modCtx n f).unseen = v.unseen := rfl
@[simp] theorem Bench.modCtx_racks (n : Nat) (f : Ctx → Ctx) : (v.modCtx n f).racks = v.racks := rfl
@[simp] theorem Bench.modCtx_tags (n : Nat) (f : Ctx → Ctx) : (v.modCtx n f).tags = v.tags := rfl
@[simp] theorem Bench.modCtx_streams (n : Nat) (f : Ctx → Ctx) : (v.modCtx n f).streams = v.streams := rfl
@[simp] theorem Bench.modCtx_xfers (n : Nat) (f : Ctx → Ctx) : (v.modCtx n f).xfers = v.xfers := rfl
@[simp] theorem Bench.modCtx_msgQ (n : Nat) (f : Ctx → Ctx) : (v.modCtx n f).msgQ = v.msgQ := rfl
@[simp] theorem Bench.modCtx_nextStream (n : Nat) (f : Ctx → Ctx) : (v.modCtx n f).nextStream = v.nextStream := rfl
@[simp] theorem Bench.modCtx_nextXfer (n : Nat) (f : Ctx → Ctx) : (v.modCtx n f).nextXfer = v.nextXfer := rfl
@[simp] theorem Bench.modCtx_lastIssued (n : Nat) (f : Ctx → Ctx) : (v.modCtx n f).lastIssued = v.lastIssued := rfl
@[simp] theorem Bench.modCtx_splitUsed (n : Nat) (f : Ctx → Ctx) : (v.modCtx n f).splitUsed = v.splitUsed := rfl
@[simp] theorem Bench.modCtx_round (n : Nat) (f : Ctx → Ctx) : (v.modCtx n f).round = v.round := rfl
@[simp] theorem Bench.modCtx_badFabric (n : Nat) (f : Ctx → Ctx) : (v.modCtx n f).badFabric = v.badFabric := rfl
@[simp] theorem Bench.modCtx_badTranspose (n : Nat) (f : Ctx → Ctx) : (v.modCtx n f).badTranspose = v.badTranspose := rfl
@[simp] theorem Bench.modCtx_badSolver (n : Nat) (f : Ctx → Ctx) : (v.modCtx n f).badSolver = v.badSolver := rfl
@[simp] theorem Bench.modCtx_draining (n : Nat) (f : Ctx → Ctx) : (v.modCtx n f).draining = v.draining := rfl
@[simp] theorem Bench.modCtx_clearing (n : Nat) (f : Ctx → Ctx) : (v.modCtx n f).clearing = v.clearing := rfl
@[simp] theorem Bench.modCtx_plane (n : Nat) (f : Ctx → Ctx) : (v.modCtx n f).plane = v.plane := rfl
@[simp] theorem Bench.modCtx_planeOk (n : Nat) (f : Ctx → Ctx) : (v.modCtx n f).planeOk = v.planeOk := rfl
@[simp] theorem Bench.modCtx_lockAt (n : Nat) (f : Ctx → Ctx) : (v.modCtx n f).lockAt = v.lockAt := rfl
@[simp] theorem Bench.modCtx_uncorAt (n : Nat) (f : Ctx → Ctx) : (v.modCtx n f).uncorAt = v.uncorAt := rfl
@[simp] theorem Bench.modCtx_sumAt (n : Nat) (f : Ctx → Ctx) : (v.modCtx n f).sumAt = v.sumAt := rfl
@[simp] theorem Bench.modCtx_retireIn (n : Nat) (f : Ctx → Ctx) : (v.modCtx n f).retireIn = v.retireIn := rfl
@[simp] theorem Bench.modCtx_cancelIn (n : Nat) (f : Ctx → Ctx) : (v.modCtx n f).cancelIn = v.cancelIn := rfl
@[simp] theorem Bench.modCtx_leaving (n : Nat) (f : Ctx → Ctx) : (v.modCtx n f).leaving = v.leaving := rfl
@[simp] theorem Bench.modCtx_slackAt (n : Nat) (f : Ctx → Ctx) : (v.modCtx n f).slackAt = v.slackAt := rfl
@[simp] theorem Bench.modCtx_issued (n : Nat) (f : Ctx → Ctx) : (v.modCtx n f).issued = v.issued := rfl

@[simp] theorem Bench.setBoard_ctxs (n : Nat) (d : Board) : (v.setBoard n d).ctxs = v.ctxs := rfl
@[simp] theorem Bench.setBoard_cur (n : Nat) (d : Board) : (v.setBoard n d).cur = v.cur := rfl
@[simp] theorem Bench.setBoard_last (n : Nat) (d : Board) : (v.setBoard n d).last = v.last := rfl
@[simp] theorem Bench.setBoard_switched (n : Nat) (d : Board) : (v.setBoard n d).switched = v.switched := rfl
@[simp] theorem Bench.setBoard_jvec (n : Nat) (d : Board) : (v.setBoard n d).jvec = v.jvec := rfl
@[simp] theorem Bench.setBoard_jsvec (n : Nat) (d : Board) : (v.setBoard n d).jsvec = v.jsvec := rfl
@[simp] theorem Bench.setBoard_jipend (n : Nat) (d : Board) : (v.setBoard n d).jipend = v.jipend := rfl
@[simp] theorem Bench.setBoard_patch (n : Nat) (d : Board) : (v.setBoard n d).patch = v.patch := rfl
@[simp] theorem Bench.setBoard_pred (n : Nat) (d : Board) : (v.setBoard n d).pred = v.pred := rfl
@[simp] theorem Bench.setBoard_flight (n : Nat) (d : Board) : (v.setBoard n d).flight = v.flight := rfl
@[simp] theorem Bench.setBoard_nextLoad (n : Nat) (d : Board) : (v.setBoard n d).nextLoad = v.nextLoad := rfl
@[simp] theorem Bench.setBoard_spec (n : Nat) (d : Board) : (v.setBoard n d).spec = v.spec := rfl
@[simp] theorem Bench.setBoard_glue (n : Nat) (d : Board) : (v.setBoard n d).glue = v.glue := rfl
@[simp] theorem Bench.setBoard_slots (n : Nat) (d : Board) : (v.setBoard n d).slots = v.slots := rfl
@[simp] theorem Bench.setBoard_applied (n : Nat) (d : Board) : (v.setBoard n d).applied = v.applied := rfl
@[simp] theorem Bench.setBoard_drawer (n : Nat) (d : Board) : (v.setBoard n d).drawer = v.drawer := rfl
@[simp] theorem Bench.setBoard_idrawer (n : Nat) (d : Board) : (v.setBoard n d).idrawer = v.idrawer := rfl
@[simp] theorem Bench.setBoard_ecc (n : Nat) (d : Board) : (v.setBoard n d).ecc = v.ecc := rfl
@[simp] theorem Bench.setBoard_stuck (n : Nat) (d : Board) : (v.setBoard n d).stuck = v.stuck := rfl
@[simp] theorem Bench.setBoard_scrubQ (n : Nat) (d : Board) : (v.setBoard n d).scrubQ = v.scrubQ := rfl
@[simp] theorem Bench.setBoard_scrubAt (n : Nat) (d : Board) : (v.setBoard n d).scrubAt = v.scrubAt := rfl
@[simp] theorem Bench.setBoard_scrubRow (n : Nat) (d : Board) : (v.setBoard n d).scrubRow = v.scrubRow := rfl
@[simp] theorem Bench.setBoard_corrN (n : Nat) (d : Board) : (v.setBoard n d).corrN = v.corrN := rfl
@[simp] theorem Bench.setBoard_corrAt (n : Nat) (d : Board) : (v.setBoard n d).corrAt = v.corrAt := rfl
@[simp] theorem Bench.setBoard_mailbox (n : Nat) (d : Board) : (v.setBoard n d).mailbox = v.mailbox := rfl
@[simp] theorem Bench.setBoard_mailAt (n : Nat) (d : Board) : (v.setBoard n d).mailAt = v.mailAt := rfl
@[simp] theorem Bench.setBoard_unseen (n : Nat) (d : Board) : (v.setBoard n d).unseen = v.unseen := rfl
@[simp] theorem Bench.setBoard_racks (n : Nat) (d : Board) : (v.setBoard n d).racks = v.racks := rfl
@[simp] theorem Bench.setBoard_tags (n : Nat) (d : Board) : (v.setBoard n d).tags = v.tags := rfl
@[simp] theorem Bench.setBoard_streams (n : Nat) (d : Board) : (v.setBoard n d).streams = v.streams := rfl
@[simp] theorem Bench.setBoard_xfers (n : Nat) (d : Board) : (v.setBoard n d).xfers = v.xfers := rfl
@[simp] theorem Bench.setBoard_msgQ (n : Nat) (d : Board) : (v.setBoard n d).msgQ = v.msgQ := rfl
@[simp] theorem Bench.setBoard_nextStream (n : Nat) (d : Board) : (v.setBoard n d).nextStream = v.nextStream := rfl
@[simp] theorem Bench.setBoard_nextXfer (n : Nat) (d : Board) : (v.setBoard n d).nextXfer = v.nextXfer := rfl
@[simp] theorem Bench.setBoard_lastIssued (n : Nat) (d : Board) : (v.setBoard n d).lastIssued = v.lastIssued := rfl
@[simp] theorem Bench.setBoard_splitUsed (n : Nat) (d : Board) : (v.setBoard n d).splitUsed = v.splitUsed := rfl
@[simp] theorem Bench.setBoard_round (n : Nat) (d : Board) : (v.setBoard n d).round = v.round := rfl
@[simp] theorem Bench.setBoard_badFabric (n : Nat) (d : Board) : (v.setBoard n d).badFabric = v.badFabric := rfl
@[simp] theorem Bench.setBoard_badTranspose (n : Nat) (d : Board) : (v.setBoard n d).badTranspose = v.badTranspose := rfl
@[simp] theorem Bench.setBoard_badSolver (n : Nat) (d : Board) : (v.setBoard n d).badSolver = v.badSolver := rfl
@[simp] theorem Bench.setBoard_draining (n : Nat) (d : Board) : (v.setBoard n d).draining = v.draining := rfl
@[simp] theorem Bench.setBoard_clearing (n : Nat) (d : Board) : (v.setBoard n d).clearing = v.clearing := rfl
@[simp] theorem Bench.setBoard_plane (n : Nat) (d : Board) : (v.setBoard n d).plane = v.plane := rfl
@[simp] theorem Bench.setBoard_planeOk (n : Nat) (d : Board) : (v.setBoard n d).planeOk = v.planeOk := rfl
@[simp] theorem Bench.setBoard_lockAt (n : Nat) (d : Board) : (v.setBoard n d).lockAt = v.lockAt := rfl
@[simp] theorem Bench.setBoard_uncorAt (n : Nat) (d : Board) : (v.setBoard n d).uncorAt = v.uncorAt := rfl
@[simp] theorem Bench.setBoard_sumAt (n : Nat) (d : Board) : (v.setBoard n d).sumAt = v.sumAt := rfl
@[simp] theorem Bench.setBoard_retireIn (n : Nat) (d : Board) : (v.setBoard n d).retireIn = v.retireIn := rfl
@[simp] theorem Bench.setBoard_cancelIn (n : Nat) (d : Board) : (v.setBoard n d).cancelIn = v.cancelIn := rfl
@[simp] theorem Bench.setBoard_leaving (n : Nat) (d : Board) : (v.setBoard n d).leaving = v.leaving := rfl
@[simp] theorem Bench.setBoard_slackAt (n : Nat) (d : Board) : (v.setBoard n d).slackAt = v.slackAt := rfl
@[simp] theorem Bench.setBoard_issued (n : Nat) (d : Board) : (v.setBoard n d).issued = v.issued := rfl

@[simp] theorem Bench.setSlot_ctxs (n : Nat) (d : Slot) : (v.setSlot n d).ctxs = v.ctxs := rfl
@[simp] theorem Bench.setSlot_cur (n : Nat) (d : Slot) : (v.setSlot n d).cur = v.cur := rfl
@[simp] theorem Bench.setSlot_last (n : Nat) (d : Slot) : (v.setSlot n d).last = v.last := rfl
@[simp] theorem Bench.setSlot_switched (n : Nat) (d : Slot) : (v.setSlot n d).switched = v.switched := rfl
@[simp] theorem Bench.setSlot_jvec (n : Nat) (d : Slot) : (v.setSlot n d).jvec = v.jvec := rfl
@[simp] theorem Bench.setSlot_jsvec (n : Nat) (d : Slot) : (v.setSlot n d).jsvec = v.jsvec := rfl
@[simp] theorem Bench.setSlot_jipend (n : Nat) (d : Slot) : (v.setSlot n d).jipend = v.jipend := rfl
@[simp] theorem Bench.setSlot_patch (n : Nat) (d : Slot) : (v.setSlot n d).patch = v.patch := rfl
@[simp] theorem Bench.setSlot_pred (n : Nat) (d : Slot) : (v.setSlot n d).pred = v.pred := rfl
@[simp] theorem Bench.setSlot_flight (n : Nat) (d : Slot) : (v.setSlot n d).flight = v.flight := rfl
@[simp] theorem Bench.setSlot_nextLoad (n : Nat) (d : Slot) : (v.setSlot n d).nextLoad = v.nextLoad := rfl
@[simp] theorem Bench.setSlot_spec (n : Nat) (d : Slot) : (v.setSlot n d).spec = v.spec := rfl
@[simp] theorem Bench.setSlot_boards (n : Nat) (d : Slot) : (v.setSlot n d).boards = v.boards := rfl
@[simp] theorem Bench.setSlot_glue (n : Nat) (d : Slot) : (v.setSlot n d).glue = v.glue := rfl
@[simp] theorem Bench.setSlot_applied (n : Nat) (d : Slot) : (v.setSlot n d).applied = v.applied := rfl
@[simp] theorem Bench.setSlot_drawer (n : Nat) (d : Slot) : (v.setSlot n d).drawer = v.drawer := rfl
@[simp] theorem Bench.setSlot_idrawer (n : Nat) (d : Slot) : (v.setSlot n d).idrawer = v.idrawer := rfl
@[simp] theorem Bench.setSlot_ecc (n : Nat) (d : Slot) : (v.setSlot n d).ecc = v.ecc := rfl
@[simp] theorem Bench.setSlot_stuck (n : Nat) (d : Slot) : (v.setSlot n d).stuck = v.stuck := rfl
@[simp] theorem Bench.setSlot_scrubQ (n : Nat) (d : Slot) : (v.setSlot n d).scrubQ = v.scrubQ := rfl
@[simp] theorem Bench.setSlot_scrubAt (n : Nat) (d : Slot) : (v.setSlot n d).scrubAt = v.scrubAt := rfl
@[simp] theorem Bench.setSlot_scrubRow (n : Nat) (d : Slot) : (v.setSlot n d).scrubRow = v.scrubRow := rfl
@[simp] theorem Bench.setSlot_corrN (n : Nat) (d : Slot) : (v.setSlot n d).corrN = v.corrN := rfl
@[simp] theorem Bench.setSlot_corrAt (n : Nat) (d : Slot) : (v.setSlot n d).corrAt = v.corrAt := rfl
@[simp] theorem Bench.setSlot_mailbox (n : Nat) (d : Slot) : (v.setSlot n d).mailbox = v.mailbox := rfl
@[simp] theorem Bench.setSlot_mailAt (n : Nat) (d : Slot) : (v.setSlot n d).mailAt = v.mailAt := rfl
@[simp] theorem Bench.setSlot_unseen (n : Nat) (d : Slot) : (v.setSlot n d).unseen = v.unseen := rfl
@[simp] theorem Bench.setSlot_racks (n : Nat) (d : Slot) : (v.setSlot n d).racks = v.racks := rfl
@[simp] theorem Bench.setSlot_tags (n : Nat) (d : Slot) : (v.setSlot n d).tags = v.tags := rfl
@[simp] theorem Bench.setSlot_streams (n : Nat) (d : Slot) : (v.setSlot n d).streams = v.streams := rfl
@[simp] theorem Bench.setSlot_xfers (n : Nat) (d : Slot) : (v.setSlot n d).xfers = v.xfers := rfl
@[simp] theorem Bench.setSlot_msgQ (n : Nat) (d : Slot) : (v.setSlot n d).msgQ = v.msgQ := rfl
@[simp] theorem Bench.setSlot_nextStream (n : Nat) (d : Slot) : (v.setSlot n d).nextStream = v.nextStream := rfl
@[simp] theorem Bench.setSlot_nextXfer (n : Nat) (d : Slot) : (v.setSlot n d).nextXfer = v.nextXfer := rfl
@[simp] theorem Bench.setSlot_lastIssued (n : Nat) (d : Slot) : (v.setSlot n d).lastIssued = v.lastIssued := rfl
@[simp] theorem Bench.setSlot_splitUsed (n : Nat) (d : Slot) : (v.setSlot n d).splitUsed = v.splitUsed := rfl
@[simp] theorem Bench.setSlot_round (n : Nat) (d : Slot) : (v.setSlot n d).round = v.round := rfl
@[simp] theorem Bench.setSlot_badFabric (n : Nat) (d : Slot) : (v.setSlot n d).badFabric = v.badFabric := rfl
@[simp] theorem Bench.setSlot_badTranspose (n : Nat) (d : Slot) : (v.setSlot n d).badTranspose = v.badTranspose := rfl
@[simp] theorem Bench.setSlot_badSolver (n : Nat) (d : Slot) : (v.setSlot n d).badSolver = v.badSolver := rfl
@[simp] theorem Bench.setSlot_draining (n : Nat) (d : Slot) : (v.setSlot n d).draining = v.draining := rfl
@[simp] theorem Bench.setSlot_clearing (n : Nat) (d : Slot) : (v.setSlot n d).clearing = v.clearing := rfl
@[simp] theorem Bench.setSlot_plane (n : Nat) (d : Slot) : (v.setSlot n d).plane = v.plane := rfl
@[simp] theorem Bench.setSlot_planeOk (n : Nat) (d : Slot) : (v.setSlot n d).planeOk = v.planeOk := rfl
@[simp] theorem Bench.setSlot_lockAt (n : Nat) (d : Slot) : (v.setSlot n d).lockAt = v.lockAt := rfl
@[simp] theorem Bench.setSlot_uncorAt (n : Nat) (d : Slot) : (v.setSlot n d).uncorAt = v.uncorAt := rfl
@[simp] theorem Bench.setSlot_sumAt (n : Nat) (d : Slot) : (v.setSlot n d).sumAt = v.sumAt := rfl
@[simp] theorem Bench.setSlot_retireIn (n : Nat) (d : Slot) : (v.setSlot n d).retireIn = v.retireIn := rfl
@[simp] theorem Bench.setSlot_cancelIn (n : Nat) (d : Slot) : (v.setSlot n d).cancelIn = v.cancelIn := rfl
@[simp] theorem Bench.setSlot_leaving (n : Nat) (d : Slot) : (v.setSlot n d).leaving = v.leaving := rfl
@[simp] theorem Bench.setSlot_slackAt (n : Nat) (d : Slot) : (v.setSlot n d).slackAt = v.slackAt := rfl
@[simp] theorem Bench.setSlot_issued (n : Nat) (d : Slot) : (v.setSlot n d).issued = v.issued := rfl

@[simp] theorem Bench.setRack_ctxs (n : Nat) (r : Rack) : (v.setRack n r).ctxs = v.ctxs := rfl
@[simp] theorem Bench.setRack_cur (n : Nat) (r : Rack) : (v.setRack n r).cur = v.cur := rfl
@[simp] theorem Bench.setRack_last (n : Nat) (r : Rack) : (v.setRack n r).last = v.last := rfl
@[simp] theorem Bench.setRack_switched (n : Nat) (r : Rack) : (v.setRack n r).switched = v.switched := rfl
@[simp] theorem Bench.setRack_jvec (n : Nat) (r : Rack) : (v.setRack n r).jvec = v.jvec := rfl
@[simp] theorem Bench.setRack_jsvec (n : Nat) (r : Rack) : (v.setRack n r).jsvec = v.jsvec := rfl
@[simp] theorem Bench.setRack_jipend (n : Nat) (r : Rack) : (v.setRack n r).jipend = v.jipend := rfl
@[simp] theorem Bench.setRack_patch (n : Nat) (r : Rack) : (v.setRack n r).patch = v.patch := rfl
@[simp] theorem Bench.setRack_pred (n : Nat) (r : Rack) : (v.setRack n r).pred = v.pred := rfl
@[simp] theorem Bench.setRack_flight (n : Nat) (r : Rack) : (v.setRack n r).flight = v.flight := rfl
@[simp] theorem Bench.setRack_nextLoad (n : Nat) (r : Rack) : (v.setRack n r).nextLoad = v.nextLoad := rfl
@[simp] theorem Bench.setRack_spec (n : Nat) (r : Rack) : (v.setRack n r).spec = v.spec := rfl
@[simp] theorem Bench.setRack_boards (n : Nat) (r : Rack) : (v.setRack n r).boards = v.boards := rfl
@[simp] theorem Bench.setRack_glue (n : Nat) (r : Rack) : (v.setRack n r).glue = v.glue := rfl
@[simp] theorem Bench.setRack_slots (n : Nat) (r : Rack) : (v.setRack n r).slots = v.slots := rfl
@[simp] theorem Bench.setRack_applied (n : Nat) (r : Rack) : (v.setRack n r).applied = v.applied := rfl
@[simp] theorem Bench.setRack_drawer (n : Nat) (r : Rack) : (v.setRack n r).drawer = v.drawer := rfl
@[simp] theorem Bench.setRack_idrawer (n : Nat) (r : Rack) : (v.setRack n r).idrawer = v.idrawer := rfl
@[simp] theorem Bench.setRack_ecc (n : Nat) (r : Rack) : (v.setRack n r).ecc = v.ecc := rfl
@[simp] theorem Bench.setRack_stuck (n : Nat) (r : Rack) : (v.setRack n r).stuck = v.stuck := rfl
@[simp] theorem Bench.setRack_scrubQ (n : Nat) (r : Rack) : (v.setRack n r).scrubQ = v.scrubQ := rfl
@[simp] theorem Bench.setRack_scrubAt (n : Nat) (r : Rack) : (v.setRack n r).scrubAt = v.scrubAt := rfl
@[simp] theorem Bench.setRack_scrubRow (n : Nat) (r : Rack) : (v.setRack n r).scrubRow = v.scrubRow := rfl
@[simp] theorem Bench.setRack_corrN (n : Nat) (r : Rack) : (v.setRack n r).corrN = v.corrN := rfl
@[simp] theorem Bench.setRack_corrAt (n : Nat) (r : Rack) : (v.setRack n r).corrAt = v.corrAt := rfl
@[simp] theorem Bench.setRack_mailbox (n : Nat) (r : Rack) : (v.setRack n r).mailbox = v.mailbox := rfl
@[simp] theorem Bench.setRack_mailAt (n : Nat) (r : Rack) : (v.setRack n r).mailAt = v.mailAt := rfl
@[simp] theorem Bench.setRack_unseen (n : Nat) (r : Rack) : (v.setRack n r).unseen = v.unseen := rfl
@[simp] theorem Bench.setRack_tags (n : Nat) (r : Rack) : (v.setRack n r).tags = v.tags := rfl
@[simp] theorem Bench.setRack_streams (n : Nat) (r : Rack) : (v.setRack n r).streams = v.streams := rfl
@[simp] theorem Bench.setRack_xfers (n : Nat) (r : Rack) : (v.setRack n r).xfers = v.xfers := rfl
@[simp] theorem Bench.setRack_msgQ (n : Nat) (r : Rack) : (v.setRack n r).msgQ = v.msgQ := rfl
@[simp] theorem Bench.setRack_nextStream (n : Nat) (r : Rack) : (v.setRack n r).nextStream = v.nextStream := rfl
@[simp] theorem Bench.setRack_nextXfer (n : Nat) (r : Rack) : (v.setRack n r).nextXfer = v.nextXfer := rfl
@[simp] theorem Bench.setRack_lastIssued (n : Nat) (r : Rack) : (v.setRack n r).lastIssued = v.lastIssued := rfl
@[simp] theorem Bench.setRack_splitUsed (n : Nat) (r : Rack) : (v.setRack n r).splitUsed = v.splitUsed := rfl
@[simp] theorem Bench.setRack_round (n : Nat) (r : Rack) : (v.setRack n r).round = v.round := rfl
@[simp] theorem Bench.setRack_badFabric (n : Nat) (r : Rack) : (v.setRack n r).badFabric = v.badFabric := rfl
@[simp] theorem Bench.setRack_badTranspose (n : Nat) (r : Rack) : (v.setRack n r).badTranspose = v.badTranspose := rfl
@[simp] theorem Bench.setRack_badSolver (n : Nat) (r : Rack) : (v.setRack n r).badSolver = v.badSolver := rfl
@[simp] theorem Bench.setRack_draining (n : Nat) (r : Rack) : (v.setRack n r).draining = v.draining := rfl
@[simp] theorem Bench.setRack_clearing (n : Nat) (r : Rack) : (v.setRack n r).clearing = v.clearing := rfl
@[simp] theorem Bench.setRack_plane (n : Nat) (r : Rack) : (v.setRack n r).plane = v.plane := rfl
@[simp] theorem Bench.setRack_planeOk (n : Nat) (r : Rack) : (v.setRack n r).planeOk = v.planeOk := rfl
@[simp] theorem Bench.setRack_lockAt (n : Nat) (r : Rack) : (v.setRack n r).lockAt = v.lockAt := rfl
@[simp] theorem Bench.setRack_uncorAt (n : Nat) (r : Rack) : (v.setRack n r).uncorAt = v.uncorAt := rfl
@[simp] theorem Bench.setRack_sumAt (n : Nat) (r : Rack) : (v.setRack n r).sumAt = v.sumAt := rfl
@[simp] theorem Bench.setRack_retireIn (n : Nat) (r : Rack) : (v.setRack n r).retireIn = v.retireIn := rfl
@[simp] theorem Bench.setRack_cancelIn (n : Nat) (r : Rack) : (v.setRack n r).cancelIn = v.cancelIn := rfl
@[simp] theorem Bench.setRack_leaving (n : Nat) (r : Rack) : (v.setRack n r).leaving = v.leaving := rfl
@[simp] theorem Bench.setRack_slackAt (n : Nat) (r : Rack) : (v.setRack n r).slackAt = v.slackAt := rfl
@[simp] theorem Bench.setRack_issued (n : Nat) (r : Rack) : (v.setRack n r).issued = v.issued := rfl

@[simp] theorem Bench.writeDrawer_ctxs (a : Nat) (l : List Byte) (p : Bool) : (v.writeDrawer a l p).ctxs = v.ctxs := rfl
@[simp] theorem Bench.writeDrawer_cur (a : Nat) (l : List Byte) (p : Bool) : (v.writeDrawer a l p).cur = v.cur := rfl
@[simp] theorem Bench.writeDrawer_last (a : Nat) (l : List Byte) (p : Bool) : (v.writeDrawer a l p).last = v.last := rfl
@[simp] theorem Bench.writeDrawer_switched (a : Nat) (l : List Byte) (p : Bool) : (v.writeDrawer a l p).switched = v.switched := rfl
@[simp] theorem Bench.writeDrawer_jvec (a : Nat) (l : List Byte) (p : Bool) : (v.writeDrawer a l p).jvec = v.jvec := rfl
@[simp] theorem Bench.writeDrawer_jsvec (a : Nat) (l : List Byte) (p : Bool) : (v.writeDrawer a l p).jsvec = v.jsvec := rfl
@[simp] theorem Bench.writeDrawer_jipend (a : Nat) (l : List Byte) (p : Bool) : (v.writeDrawer a l p).jipend = v.jipend := rfl
@[simp] theorem Bench.writeDrawer_patch (a : Nat) (l : List Byte) (p : Bool) : (v.writeDrawer a l p).patch = v.patch := rfl
@[simp] theorem Bench.writeDrawer_pred (a : Nat) (l : List Byte) (p : Bool) : (v.writeDrawer a l p).pred = v.pred := rfl
@[simp] theorem Bench.writeDrawer_flight (a : Nat) (l : List Byte) (p : Bool) : (v.writeDrawer a l p).flight = v.flight := rfl
@[simp] theorem Bench.writeDrawer_nextLoad (a : Nat) (l : List Byte) (p : Bool) : (v.writeDrawer a l p).nextLoad = v.nextLoad := rfl
@[simp] theorem Bench.writeDrawer_spec (a : Nat) (l : List Byte) (p : Bool) : (v.writeDrawer a l p).spec = v.spec := rfl
@[simp] theorem Bench.writeDrawer_boards (a : Nat) (l : List Byte) (p : Bool) : (v.writeDrawer a l p).boards = v.boards := rfl
@[simp] theorem Bench.writeDrawer_glue (a : Nat) (l : List Byte) (p : Bool) : (v.writeDrawer a l p).glue = v.glue := rfl
@[simp] theorem Bench.writeDrawer_slots (a : Nat) (l : List Byte) (p : Bool) : (v.writeDrawer a l p).slots = v.slots := rfl
@[simp] theorem Bench.writeDrawer_applied (a : Nat) (l : List Byte) (p : Bool) : (v.writeDrawer a l p).applied = v.applied := rfl
@[simp] theorem Bench.writeDrawer_idrawer (a : Nat) (l : List Byte) (p : Bool) : (v.writeDrawer a l p).idrawer = v.idrawer := rfl
@[simp] theorem Bench.writeDrawer_stuck (a : Nat) (l : List Byte) (p : Bool) : (v.writeDrawer a l p).stuck = v.stuck := rfl
@[simp] theorem Bench.writeDrawer_scrubQ (a : Nat) (l : List Byte) (p : Bool) : (v.writeDrawer a l p).scrubQ = v.scrubQ := rfl
@[simp] theorem Bench.writeDrawer_scrubAt (a : Nat) (l : List Byte) (p : Bool) : (v.writeDrawer a l p).scrubAt = v.scrubAt := rfl
@[simp] theorem Bench.writeDrawer_scrubRow (a : Nat) (l : List Byte) (p : Bool) : (v.writeDrawer a l p).scrubRow = v.scrubRow := rfl
@[simp] theorem Bench.writeDrawer_corrN (a : Nat) (l : List Byte) (p : Bool) : (v.writeDrawer a l p).corrN = v.corrN := rfl
@[simp] theorem Bench.writeDrawer_corrAt (a : Nat) (l : List Byte) (p : Bool) : (v.writeDrawer a l p).corrAt = v.corrAt := rfl
@[simp] theorem Bench.writeDrawer_mailbox (a : Nat) (l : List Byte) (p : Bool) : (v.writeDrawer a l p).mailbox = v.mailbox := rfl
@[simp] theorem Bench.writeDrawer_mailAt (a : Nat) (l : List Byte) (p : Bool) : (v.writeDrawer a l p).mailAt = v.mailAt := rfl
@[simp] theorem Bench.writeDrawer_unseen (a : Nat) (l : List Byte) (p : Bool) : (v.writeDrawer a l p).unseen = v.unseen := rfl
@[simp] theorem Bench.writeDrawer_racks (a : Nat) (l : List Byte) (p : Bool) : (v.writeDrawer a l p).racks = v.racks := rfl
@[simp] theorem Bench.writeDrawer_tags (a : Nat) (l : List Byte) (p : Bool) : (v.writeDrawer a l p).tags = v.tags := rfl
@[simp] theorem Bench.writeDrawer_streams (a : Nat) (l : List Byte) (p : Bool) : (v.writeDrawer a l p).streams = v.streams := rfl
@[simp] theorem Bench.writeDrawer_xfers (a : Nat) (l : List Byte) (p : Bool) : (v.writeDrawer a l p).xfers = v.xfers := rfl
@[simp] theorem Bench.writeDrawer_msgQ (a : Nat) (l : List Byte) (p : Bool) : (v.writeDrawer a l p).msgQ = v.msgQ := rfl
@[simp] theorem Bench.writeDrawer_nextStream (a : Nat) (l : List Byte) (p : Bool) : (v.writeDrawer a l p).nextStream = v.nextStream := rfl
@[simp] theorem Bench.writeDrawer_nextXfer (a : Nat) (l : List Byte) (p : Bool) : (v.writeDrawer a l p).nextXfer = v.nextXfer := rfl
@[simp] theorem Bench.writeDrawer_lastIssued (a : Nat) (l : List Byte) (p : Bool) : (v.writeDrawer a l p).lastIssued = v.lastIssued := rfl
@[simp] theorem Bench.writeDrawer_splitUsed (a : Nat) (l : List Byte) (p : Bool) : (v.writeDrawer a l p).splitUsed = v.splitUsed := rfl
@[simp] theorem Bench.writeDrawer_round (a : Nat) (l : List Byte) (p : Bool) : (v.writeDrawer a l p).round = v.round := rfl
@[simp] theorem Bench.writeDrawer_badFabric (a : Nat) (l : List Byte) (p : Bool) : (v.writeDrawer a l p).badFabric = v.badFabric := rfl
@[simp] theorem Bench.writeDrawer_badTranspose (a : Nat) (l : List Byte) (p : Bool) : (v.writeDrawer a l p).badTranspose = v.badTranspose := rfl
@[simp] theorem Bench.writeDrawer_badSolver (a : Nat) (l : List Byte) (p : Bool) : (v.writeDrawer a l p).badSolver = v.badSolver := rfl
@[simp] theorem Bench.writeDrawer_draining (a : Nat) (l : List Byte) (p : Bool) : (v.writeDrawer a l p).draining = v.draining := rfl
@[simp] theorem Bench.writeDrawer_clearing (a : Nat) (l : List Byte) (p : Bool) : (v.writeDrawer a l p).clearing = v.clearing := rfl
@[simp] theorem Bench.writeDrawer_plane (a : Nat) (l : List Byte) (p : Bool) : (v.writeDrawer a l p).plane = v.plane := rfl
@[simp] theorem Bench.writeDrawer_planeOk (a : Nat) (l : List Byte) (p : Bool) : (v.writeDrawer a l p).planeOk = v.planeOk := rfl
@[simp] theorem Bench.writeDrawer_lockAt (a : Nat) (l : List Byte) (p : Bool) : (v.writeDrawer a l p).lockAt = v.lockAt := rfl
@[simp] theorem Bench.writeDrawer_uncorAt (a : Nat) (l : List Byte) (p : Bool) : (v.writeDrawer a l p).uncorAt = v.uncorAt := rfl
@[simp] theorem Bench.writeDrawer_sumAt (a : Nat) (l : List Byte) (p : Bool) : (v.writeDrawer a l p).sumAt = v.sumAt := rfl
@[simp] theorem Bench.writeDrawer_retireIn (a : Nat) (l : List Byte) (p : Bool) : (v.writeDrawer a l p).retireIn = v.retireIn := rfl
@[simp] theorem Bench.writeDrawer_cancelIn (a : Nat) (l : List Byte) (p : Bool) : (v.writeDrawer a l p).cancelIn = v.cancelIn := rfl
@[simp] theorem Bench.writeDrawer_leaving (a : Nat) (l : List Byte) (p : Bool) : (v.writeDrawer a l p).leaving = v.leaving := rfl
@[simp] theorem Bench.writeDrawer_slackAt (a : Nat) (l : List Byte) (p : Bool) : (v.writeDrawer a l p).slackAt = v.slackAt := rfl
@[simp] theorem Bench.writeDrawer_issued (a : Nat) (l : List Byte) (p : Bool) : (v.writeDrawer a l p).issued = v.issued := rfl
@[simp] theorem Bench.writeDrawer_drawer (a : Nat) (l : List Byte) (p : Bool) : (v.writeDrawer a l p).drawer = v.drawer.setBytes a l := rfl
@[simp] theorem Bench.ctx_setCtx_same (n : Nat) (c : Ctx) : (v.setCtx n c).ctx n = c := tget_tset_same ..
theorem Bench.ctx_setCtx (n m : Nat) (c : Ctx) : (v.setCtx n c).ctx m = if m = n then c else v.ctx m := tget_tset ..
@[simp] theorem Bench.ctx_modCtx_same (n : Nat) (f : Ctx → Ctx) : (v.modCtx n f).ctx n = f (v.ctx n) := tget_tset_same ..
theorem Bench.ctx_modCtx (n m : Nat) (f : Ctx → Ctx) : (v.modCtx n f).ctx m = if m = n then f (v.ctx n) else v.ctx m := tget_tset ..
@[simp] theorem Bench.board_setBoard_same (n : Nat) (d : Board) : (v.setBoard n d).board n = d := tget_tset_same ..
theorem Bench.board_setBoard (n m : Nat) (d : Board) : (v.setBoard n d).board m = if m = n then d else v.board m := tget_tset ..
@[simp] theorem Bench.slot_setSlot_same (n : Nat) (d : Slot) : (v.setSlot n d).slot n = d := tget_tset_same ..
theorem Bench.slot_setSlot (n m : Nat) (d : Slot) : (v.setSlot n d).slot m = if m = n then d else v.slot m := tget_tset ..
@[simp] theorem Bench.rack_setRack_same (n : Nat) (r : Rack) : (v.setRack n r).rack n = r := tget_tset_same ..
theorem Bench.rack_setRack (n m : Nat) (r : Rack) : (v.setRack n r).rack m = if m = n then r else v.rack m := tget_tset ..
@[simp] theorem Bench.setCtx_cc (c : Ctx) : (v.setCtx v.curN c).cc = c := by
  unfold Bench.cc Bench.curN; exact Bench.ctx_setCtx_same v (v.cur.getD 0) c
@[simp] theorem Bench.modCtx_cc (f : Ctx → Ctx) : (v.modCtx v.curN f).cc = f v.cc := Bench.setCtx_cc v _
@[simp] theorem State.cc_modCc_same (b : Nat) (f : Ctx → Ctx) : (s.modCc b f).cc b = f (s.cc b) := by
  unfold State.modCc State.cc; rw [State.bench_modBench_same, Bench.modCtx_cc]

/-! ### Registers: g0 reads 0 and drops writes (R90) -/

variable (c : Ctx)

@[simp] theorem Ctx.reg_zero : c.reg 0 = 0 := rfl
@[simp] theorem Ctx.setReg_zero (x : Word) : c.setReg 0 x = c := rfl
theorem Ctx.reg_setReg (r q : Reg) (x : Word) : (c.setReg r x).reg q = if q = r ∧ r ≠ 0 then x else c.reg q := by
  by_cases hr : r = 0
  · subst hr; rw [if_neg (fun h => h.2 rfl)]; rfl
  · by_cases hq : q = 0
    · subst hq; rw [if_neg (fun h => h.2 h.1.symm)]; rfl
    · simp only [Ctx.reg, Ctx.setReg, hr, hq, if_false, tget_tset]
      by_cases h : q = r
      · rw [if_pos (congrArg _ h), if_pos ⟨h, hr⟩]
      · rw [if_neg (fun e => h (BitVec.eq_of_toNat_eq e)), if_neg (fun e => h e.1)]

/-- Writing a general register changes no other part of the context. -/
theorem Ctx.setReg_frame (r : Reg) (x : Word) : (c.setReg r x) = { c with regs := (c.setReg r x).regs } := by
  unfold Ctx.setReg; split <;> rfl

@[simp] theorem Ctx.setReg_status (r : Reg) (x : Word) : (c.setReg r x).status = c.status := by unfold Ctx.setReg; split <;> rfl
@[simp] theorem Ctx.setReg_pc (r : Reg) (x : Word) : (c.setReg r x).pc = c.pc := by unfold Ctx.setReg; split <;> rfl
@[simp] theorem Ctx.setReg_jstat (r : Reg) (x : Word) : (c.setReg r x).jstat = c.jstat := by unfold Ctx.setReg; split <;> rfl
@[simp] theorem Ctx.setReg_jepc (r : Reg) (x : Word) : (c.setReg r x).jepc = c.jepc := by unfold Ctx.setReg; split <;> rfl
@[simp] theorem Ctx.setReg_jcause (r : Reg) (x : Word) : (c.setReg r x).jcause = c.jcause := by unfold Ctx.setReg; split <;> rfl
@[simp] theorem Ctx.setReg_jbadaddr (r : Reg) (x : Word) : (c.setReg r x).jbadaddr = c.jbadaddr := by unfold Ctx.setReg; split <;> rfl
@[simp] theorem Ctx.setReg_jmode (r : Reg) (x : Word) : (c.setReg r x).jmode = c.jmode := by unfold Ctx.setReg; split <;> rfl
@[simp] theorem Ctx.setReg_jien (r : Reg) (x : Word) : (c.setReg r x).jien = c.jien := by unfold Ctx.setReg; split <;> rfl
@[simp] theorem Ctx.setReg_jscratch (r : Reg) (x : Word) : (c.setReg r x).jscratch = c.jscratch := by unfold Ctx.setReg; split <;> rfl
@[simp] theorem Ctx.setReg_lstart (r : Reg) (x : Word) : (c.setReg r x).lstart = c.lstart := by unfold Ctx.setReg; split <;> rfl
@[simp] theorem Ctx.setReg_lend (r : Reg) (x : Word) : (c.setReg r x).lend = c.lend := by unfold Ctx.setReg; split <;> rfl
@[simp] theorem Ctx.setReg_lcnt (r : Reg) (x : Word) : (c.setReg r x).lcnt = c.lcnt := by unfold Ctx.setReg; split <;> rfl
@[simp] theorem Ctx.setReg_delay (r : Reg) (x : Word) : (c.setReg r x).delay = c.delay := by unfold Ctx.setReg; split <;> rfl
@[simp] theorem Ctx.setReg_modeShadow (r : Reg) (x : Word) : (c.setReg r x).modeShadow = c.modeShadow := by unfold Ctx.setReg; split <;> rfl
@[simp] theorem Ctx.setReg_deadline (r : Reg) (x : Word) : (c.setReg r x).deadline = c.deadline := by unfold Ctx.setReg; split <;> rfl
@[simp] theorem Ctx.setReg_await (r : Reg) (x : Word) : (c.setReg r x).await = c.await := by unfold Ctx.setReg; split <;> rfl
@[simp] theorem Ctx.setReg_part (r : Reg) (x : Word) : (c.setReg r x).part = c.part := by unfold Ctx.setReg; split <;> rfl
@[simp] theorem Ctx.setReg_cmd (r : Reg) (x : Word) : (c.setReg r x).cmd = c.cmd := by unfold Ctx.setReg; split <;> rfl
@[simp] theorem Ctx.setReg_rackMask (r : Reg) (x : Word) : (c.setReg r x).rackMask = c.rackMask := by unfold Ctx.setReg; split <;> rfl

end Sys2Proof.Machine
end

