-- ==== Sys2Proof/Laws/Issue.lean ====
section
/-! SUPPORT. What `issue` does, said once: an instruction that issues runs its body at issue and finishes, and what it waits for
leaves the contexts and the memories as they were. -/

namespace Sys2Proof.Machine

/-- The body of an instruction that issues runs at issue, and the instruction finishes. -/
theorem issue_eq {b : Bench7} {kind : Kind} {retire : State → Bool} {uses : List Reg} {body : State → Res} {s : State}
    (h : s.issues b.toNat kind uses (retire s)) :
    issue b kind retire uses body s = (s.atIssue b.toNat (retire s)).finish b.toNat (body (s.atIssue b.toNat (retire s))) := by
  simp only [State.issues, Bool.and_eq_true, Bool.not_eq_true', Option.isNone_iff_eq_none] at h
  obtain ⟨⟨⟨⟨h1, h2⟩, h3⟩, h4⟩, h5⟩ := h
  unfold issue State.atIssue
  simp [h1, h2, h3, h4, h5]

@[simp] theorem State.finish_ok (u t : State) (b : Nat) : u.finish b (.ok t) = u.retiresFrom t b := rfl
@[simp] theorem State.finish_done (u t : State) (b : Nat) (post : State → State) (n : Option Word) :
    u.finish b (.done t post n) = u.retiresFrom t b n post := rfl
@[simp] theorem State.finish_reg (u : State) (b : Bench7) (rd : Reg) (v : Word) :
    u.finish b.toNat (Res.reg u b rd v) = u.writes b.toNat rd v := rfl
@[simp] theorem State.finish_exc (u : State) (b code : Nat) (bad : Option Word) : u.finish b (.exc code bad) = u.raise b code bad := rfl
@[simp] theorem State.finish_hold (u : State) (b : Nat) : u.finish b .hold = u := rfl
@[simp] theorem State.finish_stop (u t : State) (b : Nat) : u.finish b (.stop t) = t := rfl
@[simp] theorem State.finish_late (u : State) (b : Nat) (w : Await) : u.finish b (.late w) = u.lateTask b w := rfl

/-! ### Commits -/

/-- What commits of bench `b` leave as it was, from `s` to `t`: they write boards, slots, the applied-pattern register and check
bits of the bench, and the energy and the clamped indices of a partition. -/
structure CommitFrame (s t : State) (b : Nat) : Prop where
  benches : ∀ k, k ≠ b → t.bench k = s.bench k
  bench : let v := s.bench b
    { t.bench b with flight := v.flight, boards := v.boards, slots := v.slots, applied := v.applied, ecc := v.ecc } = v
  rest : { t with benches := s.benches, tens := s.tens } = s
  tens : ∀ p, { t.ten p with oob := (s.ten p).oob, energyFj := (s.ten p).energyFj } = s.ten p

theorem CommitFrame.refl (s : State) (b : Nat) : CommitFrame s s b := ⟨fun _ _ => rfl, rfl, rfl, fun _ => rfl⟩

theorem CommitFrame.trans {s t u : State} {b : Nat} (h : CommitFrame s t b) (g : CommitFrame t u b) : CommitFrame s u b where
  benches k hk := (g.benches k hk).trans (h.benches k hk)
  bench := by
    have h1 := congrArg (fun v : Bench => { v with
      flight := (s.bench b).flight, boards := (s.bench b).boards, slots := (s.bench b).slots, applied := (s.bench b).applied
      ecc := (s.bench b).ecc }) g.bench
    exact h1.trans h.bench
  rest := by
    have h1 := congrArg (fun v : State => { v with benches := s.benches, tens := s.tens }) g.rest
    exact h1.trans h.rest
  tens p := by
    have h1 := congrArg (fun v : Tenant => { v with oob := (s.ten p).oob, energyFj := (s.ten p).energyFj }) (g.tens p)
    exact h1.trans (h.tens p)

/-- A change of one bench in the fields that commits write. -/
theorem CommitFrame.modBench (s : State) (b : Nat) (f : Bench → Bench)
    (h : let v := s.bench b
      { f v with flight := v.flight, boards := v.boards, slots := v.slots, applied := v.applied, ecc := v.ecc } = v) :
    CommitFrame s (s.modBench b f) b where
  benches k hk := (State.bench_modBench ..).trans (if_neg hk)
  bench := by rw [State.bench_modBench_same]; exact h
  rest := rfl
  tens _ := rfl

/-- A change of one partition in the fields that commits write. -/
theorem CommitFrame.modTen (s : State) (b p : Nat) (f : Tenant → Tenant)
    (h : ∀ t : Tenant, { f t with oob := t.oob, energyFj := t.energyFj } = t) : CommitFrame s (s.modTen p f) b where
  benches _ _ := rfl
  bench := rfl
  rest := rfl
  tens q := by
    rw [State.ten_modTen]
    split
    · next hq => subst hq; exact h _
    · rfl

theorem State.opStarts_frame (s : State) (b : Nat) (o : Op) : CommitFrame s (s.opStarts b o) b := by
  unfold State.opStarts
  refine CommitFrame.trans ?_ (CommitFrame.modBench _ b _ ?_)
  · unfold State.permEnergy State.energy
    split
    · exact CommitFrame.refl ..
    · exact CommitFrame.modTen _ _ _ _ fun _ => rfl
  · simp only
    split
    · split <;> rfl
    · split
      · unfold Bench.unapply; repeat' split
        all_goals rfl
      · rfl

/-- A buffered result changes boards, slots, the applied-pattern register and check bits. -/
theorem Bench.unbuffer_frame (v : Bench) (k : Nat) (d : Dest) :
    { v.unbuffer k d with flight := v.flight, boards := v.boards, slots := v.slots, applied := v.applied, ecc := v.ecc } = v := by
  unfold Bench.unbuffer Bench.placeBoard Bench.placeSlot Bench.unapply Bench.setBoard Bench.setSlot
  generalize bufBase k = o
  cases d with
  | slot n => simp only; split <;> rfl
  | _ => rfl

theorem State.commitOp_frame (s : State) (b : Nat) (o : Op) : CommitFrame s (s.commitOp b o) b := by
  unfold State.commitOp
  simp only
  have h1 : CommitFrame s (if o.started = true then s else s.opStarts b o) b := by
    split
    · exact CommitFrame.refl ..
    · exact State.opStarts_frame ..
  generalize (if o.started = true then s else s.opStarts b o) = t at h1
  have last : ∀ w : State, CommitFrame w (if o.oob = 0 then w else w.oobAdd (w.actsFor b) o.oob) b := by
    intro w
    split
    · exact CommitFrame.refl ..
    · unfold State.oobAdd; exact CommitFrame.modTen _ _ _ _ fun _ => rfl
  refine h1.trans ?_
  cases o.buf with
  | none => exact last _
  | some k => exact (CommitFrame.modBench _ b _ (Bench.unbuffer_frame ..)).trans (last _)

theorem State.popHead_frame (s : State) (b : Nat) : CommitFrame s (s.popHead b) b := by
  unfold State.popHead
  split
  · exact CommitFrame.refl ..
  · refine CommitFrame.trans ?_ (CommitFrame.modBench _ b _ rfl)
    split
    · exact CommitFrame.refl ..
    · exact State.commitOp_frame ..

/-- A fold of steps that each commit. -/
theorem CommitFrame.foldl {α : Type} {b : Nat} {f : State → α → State} (h : ∀ s a, CommitFrame s (f s a) b) (l : List α) (s : State) :
    CommitFrame s (l.foldl f s) b := by
  induction l generalizing s with
  | nil => exact CommitFrame.refl ..
  | cons a l ih => exact (h s a).trans (ih _)

/-- A fold of steps that each commit until one squashes. -/
theorem CommitFrame.foldl_flag {α : Type} {b : Nat} {f : State → State × Bool} (h : ∀ s, (f s).2 = true → CommitFrame s (f s).1 b)
    (l : List α) (acc : State × Bool) (hl : (l.foldl (fun (acc : State × Bool) _ => if acc.2 then f acc.1 else acc) acc).2 = true) :
    CommitFrame acc.1 (l.foldl (fun (acc : State × Bool) _ => if acc.2 then f acc.1 else acc) acc).1 b := by
  induction l generalizing acc with
  | nil => exact CommitFrame.refl ..
  | cons a l ih =>
    simp only [List.foldl_cons] at hl ⊢
    have stuck : ∀ (l : List α) (s : State), (l.foldl (fun (acc : State × Bool) _ => if acc.2 then f acc.1 else acc) (s, false)) = (s, false) := by
      intro l s
      induction l with
      | nil => rfl
      | cons _ l ih => simpa using ih
    obtain ⟨s, ok⟩ := acc
    cases ok
    · simp [stuck] at hl
    · simp only [if_true] at hl ⊢
      cases hf : (f s).2
      · rw [show f s = ((f s).1, false) from Prod.ext rfl hf, stuck] at hl
        exact absurd hl (by simp)
      · exact (h s hf).trans (ih _ hl)

theorem State.popDone_frame (s : State) (b : Nat) : CommitFrame s (s.popDone b) b := by
  unfold State.popDone
  refine CommitFrame.foldl (fun s _ => ?_) _ _
  split
  · split
    · exact State.popHead_frame ..
    · exact CommitFrame.refl ..
  · exact CommitFrame.refl ..

/-- A branch that resolves as predicted (R107, R212). -/
theorem State.resolveOne_frame (s : State) (b : Nat) (h : (s.resolveOne b).2 = true) : CommitFrame s (s.resolveOne b).1 b := by
  unfold State.resolveOne at h ⊢
  split at h
  · exact CommitFrame.refl ..
  · split at h
    · next hk =>
      simp only [hk, if_true]
      exact (CommitFrame.modBench _ b _ rfl).trans (State.popDone_frame ..)
    · exact absurd h (by simp)

theorem State.resolveAll_frame (s : State) (b : Nat) (h : (s.resolveAll b).2 = true) : CommitFrame s (s.resolveAll b).1 b :=
  CommitFrame.foldl_flag (fun t ht => State.resolveOne_frame t b ht) _ (s, true) h

theorem State.commitAll_frame (s : State) (b : Nat) (h : (s.commitAll b).2 = true) : CommitFrame s (s.commitAll b).1 b := by
  unfold State.commitAll at h ⊢
  split at h
  · exact absurd h (by simp)
  · next hn =>
    simp only [hn]
    refine CommitFrame.foldl_flag (f := fun t => t.commitHead b) (fun t ht => ?_) _ (s, true) h
    unfold State.commitHead at ht ⊢
    split at ht
    · exact CommitFrame.refl ..
    · split at ht
      · next hb => simp only [hb, if_true]; exact State.resolveOne_frame t b ht
      · next hb => simp only [hb]; exact State.popHead_frame ..

/-- What an instruction waits for changes nothing but what commits change. -/
theorem State.letIn_frame (s : State) (b : Nat) (retire : Bool) (h : (s.letIn b retire).2 = true) : CommitFrame s (s.letIn b retire).1 b := by
  unfold State.letIn at h ⊢
  cases retire
  · simp only [Bool.false_eq_true, if_false] at h ⊢
    unfold State.makeRoom at h ⊢
    simp only at h ⊢
    generalize hr : (if 4 ≤ (s.bench b).shadowed then s.resolveAll b else (s, true)) = r at h ⊢
    have h1 : r.2 = true → CommitFrame s r.1 b := by
      intro h2
      subst hr
      split at h2
      · next hs => simp only [hs, if_true]; exact State.resolveAll_frame s b h2
      · next hs => simp only [hs, if_false]; exact CommitFrame.refl ..
    split at h
    · next hc =>
      simp only [hc, if_true]
      simp only [Bool.and_eq_true] at hc
      exact (h1 hc.1).trans (State.commitAll_frame _ b h)
    · next hc => simp only [hc]; exact h1 h
  · simp only [if_true] at h ⊢
    exact State.commitAll_frame s b h

/-! ### The fetch -/

/-- What the report of a corrected word leaves as it was (R368, R633): the bench queues the word and counts it, and the log may
take an entry. -/
structure ScrubFrame (s t : State) (b : Nat) : Prop where
  benches : ∀ k, k ≠ b → t.bench k = s.bench k
  bench : { t.bench b with scrubQ := (s.bench b).scrubQ, corrN := (s.bench b).corrN, corrAt := (s.bench b).corrAt } = s.bench b
  rest : { t with benches := s.benches, reports := s.reports } = s

theorem ScrubFrame.modBench (s : State) (b : Nat) (f : Bench → Bench)
    (h : { f (s.bench b) with scrubQ := (s.bench b).scrubQ, corrN := (s.bench b).corrN, corrAt := (s.bench b).corrAt } = s.bench b) :
    ScrubFrame s (s.modBench b f) b where
  benches k hk := (State.bench_modBench ..).trans (if_neg hk)
  bench := by rw [State.bench_modBench_same]; exact h
  rest := rfl

theorem State.corrected_frame (s : State) (b site key : Nat) : ScrubFrame s (s.corrected b site key) b := by
  unfold State.corrected
  simp only
  have rep : ∀ {t : State} (r : Report), ScrubFrame s t b → ScrubFrame s (t.report r) b := fun r h => ⟨h.benches, h.bench, h.rest⟩
  split
  all_goals split
  all_goals first
    | exact ScrubFrame.modBench _ _ _ rfl
    | exact rep _ (ScrubFrame.modBench _ _ _ rfl)

/-- The reports of words that are not uncorrectable. -/
theorem State.eccReports_frame (s : State) (b : Nat) (l : List (Nat × Ecc)) (h : eccBad l = false) : ScrubFrame s (s.eccReports b l) b := by
  unfold State.eccReports
  induction l generalizing s with
  | nil => exact ⟨fun _ _ => rfl, rfl, rfl⟩
  | cons e l ih =>
    simp only [eccBad, List.any_cons, Bool.or_eq_false_iff, decide_eq_false_iff_not] at h
    simp only [List.foldl_cons]
    have hl : eccBad l = false := by simpa [eccBad] using h.2
    have ih := fun s => ih s hl
    obtain ⟨key, e⟩ := e
    cases e with
    | double => exact absurd rfl h.1.1
    | poison => exact absurd rfl h.1.2
    | ok => exact ih s
    | single =>
      obtain ⟨a1, a2, a3⟩ := State.corrected_frame s b (key / 2 ^ 24) key
      obtain ⟨b1, b2, b3⟩ := ih (s.corrected b (key / 2 ^ 24) key)
      refine ⟨fun k hk => (b1 k hk).trans (a1 k hk), ?_, ?_⟩
      · have h1 := congrArg (fun v : Bench => { v with scrubQ := (s.bench b).scrubQ, corrN := (s.bench b).corrN, corrAt := (s.bench b).corrAt }) b2
        exact h1.trans a2
      · have h1 := congrArg (fun v : State => { v with benches := s.benches, reports := s.reports }) b3
        exact h1.trans a3

/-! ### Issue -/

/-- An instruction issues only where its word can be read (R369). -/
theorem State.before_fetch {s : State} {b : Nat} {kind : Kind} (h : s.before b kind = none) : eccBad (s.bench b).badFetch = false := by
  unfold State.before at h
  simp only at h
  split at h
  · exact absurd h (by simp)
  · split at h
    · exact absurd h (by simp)
    · split at h
      · split at h <;> exact absurd h (by simp)
      · next hn => simpa using hn

/-- What issuing leaves as it was, from `s` to `u`: what commits change, the reports of a corrected fetch, and the count of
instructions. -/
structure IssueFrame (s u : State) (b : Nat) : Prop where
  benches : ∀ k, k ≠ b → u.bench k = s.bench k
  bench : let v := s.bench b
    { u.bench b with
      flight := v.flight, boards := v.boards, slots := v.slots, applied := v.applied, ecc := v.ecc
      scrubQ := v.scrubQ, corrN := v.corrN, corrAt := v.corrAt, issued := v.issued, switched := v.switched } = v
  rest : { u with benches := s.benches, tens := s.tens, reports := s.reports } = s
  tens : ∀ p, { u.ten p with oob := (s.ten p).oob, energyFj := (s.ten p).energyFj } = s.ten p

theorem State.atIssue_frame {s : State} {b : Nat} {kind : Kind} {uses : List Reg} {retire : Bool} (h : s.issues b kind uses retire) :
    IssueFrame s (s.atIssue b retire) b := by
  simp only [State.issues, Bool.and_eq_true, Bool.not_eq_true', Option.isNone_iff_eq_none] at h
  obtain ⟨⟨⟨⟨_, hb⟩, _⟩, _⟩, ha⟩ := h
  have f := State.letIn_frame s b retire ha
  have g := State.eccReports_frame (s.letIn b retire).1 b _ (State.before_fetch hb)
  unfold State.atIssue
  generalize (s.letIn b retire).1 = t at f g
  generalize t.eccReports b (s.bench b).badFetch = w at g
  refine ⟨fun k hk => ?_, ?_, ?_, fun p => ?_⟩
  · exact ((State.bench_modBench ..).trans (if_neg hk)).trans ((g.benches k hk).trans (f.benches k hk))
  · unfold State.tally
    rw [State.bench_modBench_same]
    have h1 := congrArg (fun v : Bench => { v with
      flight := (s.bench b).flight, boards := (s.bench b).boards, slots := (s.bench b).slots, applied := (s.bench b).applied
      ecc := (s.bench b).ecc, scrubQ := (s.bench b).scrubQ, corrN := (s.bench b).corrN, corrAt := (s.bench b).corrAt
      issued := (s.bench b).issued, switched := (s.bench b).switched }) g.bench
    have h2 := congrArg (fun v : Bench => { v with
      scrubQ := (s.bench b).scrubQ, corrN := (s.bench b).corrN, corrAt := (s.bench b).corrAt, issued := (s.bench b).issued
      switched := (s.bench b).switched }) f.bench
    exact h1.trans h2
  · have h1 := congrArg (fun v : State => { v with benches := s.benches, tens := s.tens, reports := s.reports }) g.rest
    have h2 := congrArg (fun v : State => { v with reports := s.reports }) f.rest
    exact h1.trans h2
  · have h1 : w.ten p = t.ten p := by
      have := congrArg State.tens g.rest
      simp only at this
      unfold State.ten; rw [this]
    have h2 : (w.tally b).ten p = w.ten p := rfl
    rw [h2, h1]; exact f.tens p

/-- The running context is as it was when its instruction issues. -/
theorem State.atIssue_cc {s : State} {b : Nat} {kind : Kind} {uses : List Reg} {retire : Bool} (h : s.issues b kind uses retire) :
    (s.atIssue b retire).cc b = s.cc b := by
  have f := (State.atIssue_frame h).bench
  unfold State.cc Bench.cc Bench.ctx Bench.curN
  have h1 := congrArg Bench.ctxs f
  have h2 := congrArg Bench.cur f
  simp only at h1 h2
  rw [h1, h2]

/-! ### Retire -/

@[simp] theorem Bench.pushBranch_ctx (v : Bench) (r : Bool) (p : Word) (n : Nat) : (v.pushBranch r p).ctx n = v.ctx n := rfl
@[simp] theorem Bench.pushBranch_cc (v : Bench) (r : Bool) (p : Word) : (v.pushBranch r p).cc = v.cc := rfl

/-- The running context after a retire. -/
@[simp] theorem State.retireInsn_cc (s : State) (b : Nat) (sh : Option (BitVec 2)) (sl : Option Delay) (nx : Option Word) :
    (s.retireInsn b sh sl id nx).cc b = (s.cc b).retired sh sl nx := by
  unfold State.retireInsn State.cc
  simp only [id]
  split
  · rw [State.bench_modBench_same]
    exact State.cc_modCc_same s b _
  · rw [State.bench_modBench_same, State.bench_modBench_same]
    exact State.cc_modCc_same s b _

/-- A retire changes the running context and what is in flight of its bench, and nothing else. -/
theorem State.retireInsn_frame (s : State) (b : Nat) (sh : Option (BitVec 2)) (sl : Option Delay) (nx : Option Word) :
    let t := s.retireInsn b sh sl id nx
    (∀ n, n ≠ (s.bench b).curN → (t.bench b).ctx n = (s.bench b).ctx n) ∧
    { t.bench b with ctxs := (s.bench b).ctxs, flight := (s.bench b).flight } = s.bench b ∧
    (∀ k, k ≠ b → t.bench k = s.bench k) ∧ { t with benches := s.benches } = s := by
  unfold State.retireInsn State.modCc
  simp only [id]
  split
  · refine ⟨fun n hn => ?_, ?_, fun k hk => ?_, rfl⟩
    · rw [State.bench_modBench_same, State.bench_modBench_same]; exact (Bench.ctx_modCtx (s.bench b) _ n fun c => c.retired sh sl nx).trans (if_neg hn)
    · rw [State.bench_modBench_same, State.bench_modBench_same]; rfl
    · rw [State.bench_modBench, if_neg hk, State.bench_modBench, if_neg hk]
  · refine ⟨fun n hn => ?_, ?_, fun k hk => ?_, rfl⟩
    · rw [State.bench_modBench_same, State.bench_modBench_same, State.bench_modBench_same, Bench.pushBranch_ctx]
      exact (Bench.ctx_modCtx (s.bench b) _ n fun c => c.retired sh sl nx).trans (if_neg hn)
    · rw [State.bench_modBench_same, State.bench_modBench_same, State.bench_modBench_same]; rfl
    · rw [State.bench_modBench, if_neg hk, State.bench_modBench, if_neg hk, State.bench_modBench, if_neg hk]

/-- The loop-end test changes the loop counters only, and with LE = 0 not even them (R109). -/
theorem loopEnd_frame (c : Ctx) (a nx : Word) : { (loopEnd c a nx).1 with lcnt := c.lcnt } = c ∧
    (c.le = false → loopEnd c a nx = (c, nx)) := by
  unfold loopEnd
  simp only
  split
  · next h =>
    refine ⟨?_, fun h' => absurd h (by rw [h']; decide)⟩
    repeat' split
    all_goals rfl
  · exact ⟨rfl, fun _ => rfl⟩

/-- What an instruction that writes one register from its context does where it issues plainly. -/
theorem aluOp_eq {b : Bench7} {rd : Reg} {uses : List Reg} {f : Ctx → Word} {s : State}
    (h : s.issues b.toNat .plain (rd :: uses) false) :
    aluOp b rd uses f s = (s.atIssue b.toNat false).writes b.toNat rd (f ((s.atIssue b.toNat false).cc b.toNat)) := by
  unfold aluOp; exact issue_eq (retire := never) h

/-- One cycle of the stroke reference counts in every column. -/
theorem tickCols_get (cols : Tab Column) (c : Nat) :
    tget {} (tickCols cols) c = if c < 16 then (tget {} cols c).tick else tget {} cols c := by
  unfold tickCols
  rw [tget_foldl_tmod _ _ _ List.nodup_range]
  simp only [List.mem_range]

end Sys2Proof.Machine
end

