-- ==== Sys2Proof/Laws/PerInstr.lean ====
section
/-! SUPPORT. Every word of the Jig encoding decodes to a well-formed command (R141, R142), instruction by instruction. -/

namespace Sys2Proof.Machine

theorem wf_of_guard0 {ok : Bool} {i j : Instr} (hi : i.wf = true) (h : guard0 ok i = some j) : j.wf = true := by
  unfold guard0 at h
  split at h
  · cases h; exact hi
  · cases h

theorem wf_of_some {i j : Instr} (hi : i.wf = true) (h : some i = some j) : j.wf = true := by cases h; exact hi

theorem decodeAlu_wf {b : Bench7} {w : Word} {i : Instr} (h : decodeAlu b w = some i) : i.wf = true := by
  unfold decodeAlu at h
  dsimp only at h
  split at h <;> first | exact wf_of_some rfl h | exact wf_of_guard0 rfl h | cases h

theorem decodeSys_wf {b : Bench7} {w : Word} {i : Instr} (h : decodeSys b w = some i) : i.wf = true := by
  unfold decodeSys at h
  dsimp only at h
  split at h <;> first | exact wf_of_guard0 rfl h | cases h

theorem decodeGlue_wf {b : Bench7} {w : Word} {i : Instr} (h : decodeGlue b w = some i) : i.wf = true := by
  unfold decodeGlue at h
  dsimp only at h
  split at h
  · cases h
  · split at h <;> first | exact wf_of_guard0 rfl h | cases h

theorem decodeMarq_wf {b : Bench7} {w : Word} {i : Instr} (h : decodeMarq b w = some i) : i.wf = true := by
  unfold decodeMarq at h
  dsimp only at h
  split at h <;> exact wf_of_guard0 rfl h

theorem decodeStream_wf {b : Bench7} {w : Word} {i : Instr} (h : decodeStream b w = some i) : i.wf = true := by
  unfold decodeStream at h
  dsimp only at h
  split at h
  · cases h
  · split at h <;> first | exact wf_of_guard0 rfl h | cases h

theorem decodeMsg_wf {b : Bench7} {w : Word} {i : Instr} (h : decodeMsg b w = some i) : i.wf = true := by
  unfold decodeMsg at h
  dsimp only at h
  split at h
  · cases h
  · split at h <;> first | exact wf_of_some rfl h | cases h

theorem decodeDow_wf {b : Bench7} {w : Word} {i : Instr} (h : decodeDow b w = some i) : i.wf = true := by
  unfold decodeDow at h
  dsimp only at h
  split at h
  · cases h
  · split at h <;> first | exact wf_of_some rfl h | cases h

/-- Whatever a word decodes to is well formed. -/
theorem decodeJig_wf {b : Bench7} {w : Word} {i : Instr} (h : decodeJig b w = some i) : i.wf = true := by
  unfold decodeJig at h
  dsimp only at h
  split at h <;> first
    | exact wf_of_some rfl h
    | exact wf_of_guard0 rfl h
    | exact decodeAlu_wf h
    | exact decodeSys_wf h
    | exact decodeGlue_wf h
    | exact decodeMarq_wf h
    | exact decodeStream_wf h
    | exact decodeMsg_wf h
    | exact decodeDow_wf h
    | cases h

end Sys2Proof.Machine

namespace Sys2Proof.Laws.Wf

open Sys2Proof.Machine

/-- A word that decodes to the instruction decodes to a well-formed one. -/
def Statement (i : Instr) : Prop := ∀ (b : Bench7) (w : Word), decodeJig b w = some i → i.wf = true

end Sys2Proof.Laws.Wf

open Sys2Proof

theorem Sys2Proof.Laws.Wf.add (b : Bench7) (rd ra rb : Reg) : Sys2Proof.Laws.Wf.Statement (Instr.add b rd ra rb) := fun _ _ h => Sys2Proof.Machine.decodeJig_wf h
theorem Sys2Proof.Laws.Wf.sub (b : Bench7) (rd ra rb : Reg) : Sys2Proof.Laws.Wf.Statement (Instr.sub b rd ra rb) := fun _ _ h => Sys2Proof.Machine.decodeJig_wf h
theorem Sys2Proof.Laws.Wf.and_ (b : Bench7) (rd ra rb : Reg) : Sys2Proof.Laws.Wf.Statement (Instr.and_ b rd ra rb) := fun _ _ h => Sys2Proof.Machine.decodeJig_wf h
theorem Sys2Proof.Laws.Wf.andn (b : Bench7) (rd ra rb : Reg) : Sys2Proof.Laws.Wf.Statement (Instr.andn b rd ra rb) := fun _ _ h => Sys2Proof.Machine.decodeJig_wf h
theorem Sys2Proof.Laws.Wf.or_ (b : Bench7) (rd ra rb : Reg) : Sys2Proof.Laws.Wf.Statement (Instr.or_ b rd ra rb) := fun _ _ h => Sys2Proof.Machine.decodeJig_wf h
theorem Sys2Proof.Laws.Wf.xor (b : Bench7) (rd ra rb : Reg) : Sys2Proof.Laws.Wf.Statement (Instr.xor b rd ra rb) := fun _ _ h => Sys2Proof.Machine.decodeJig_wf h
theorem Sys2Proof.Laws.Wf.sll (b : Bench7) (rd ra rb : Reg) : Sys2Proof.Laws.Wf.Statement (Instr.sll b rd ra rb) := fun _ _ h => Sys2Proof.Machine.decodeJig_wf h
theorem Sys2Proof.Laws.Wf.srl (b : Bench7) (rd ra rb : Reg) : Sys2Proof.Laws.Wf.Statement (Instr.srl b rd ra rb) := fun _ _ h => Sys2Proof.Machine.decodeJig_wf h
theorem Sys2Proof.Laws.Wf.sra (b : Bench7) (rd ra rb : Reg) : Sys2Proof.Laws.Wf.Statement (Instr.sra b rd ra rb) := fun _ _ h => Sys2Proof.Machine.decodeJig_wf h
theorem Sys2Proof.Laws.Wf.slt (b : Bench7) (rd ra rb : Reg) : Sys2Proof.Laws.Wf.Statement (Instr.slt b rd ra rb) := fun _ _ h => Sys2Proof.Machine.decodeJig_wf h
theorem Sys2Proof.Laws.Wf.sltu (b : Bench7) (rd ra rb : Reg) : Sys2Proof.Laws.Wf.Statement (Instr.sltu b rd ra rb) := fun _ _ h => Sys2Proof.Machine.decodeJig_wf h
theorem Sys2Proof.Laws.Wf.min (b : Bench7) (rd ra rb : Reg) : Sys2Proof.Laws.Wf.Statement (Instr.min b rd ra rb) := fun _ _ h => Sys2Proof.Machine.decodeJig_wf h
theorem Sys2Proof.Laws.Wf.max (b : Bench7) (rd ra rb : Reg) : Sys2Proof.Laws.Wf.Statement (Instr.max b rd ra rb) := fun _ _ h => Sys2Proof.Machine.decodeJig_wf h
theorem Sys2Proof.Laws.Wf.minu (b : Bench7) (rd ra rb : Reg) : Sys2Proof.Laws.Wf.Statement (Instr.minu b rd ra rb) := fun _ _ h => Sys2Proof.Machine.decodeJig_wf h
theorem Sys2Proof.Laws.Wf.maxu (b : Bench7) (rd ra rb : Reg) : Sys2Proof.Laws.Wf.Statement (Instr.maxu b rd ra rb) := fun _ _ h => Sys2Proof.Machine.decodeJig_wf h
theorem Sys2Proof.Laws.Wf.clz (b : Bench7) (rd ra : Reg) : Sys2Proof.Laws.Wf.Statement (Instr.clz b rd ra) := fun _ _ h => Sys2Proof.Machine.decodeJig_wf h
theorem Sys2Proof.Laws.Wf.popc (b : Bench7) (rd ra : Reg) : Sys2Proof.Laws.Wf.Statement (Instr.popc b rd ra) := fun _ _ h => Sys2Proof.Machine.decodeJig_wf h
theorem Sys2Proof.Laws.Wf.slli (b : Bench7) (rd ra : Reg) (n : BitVec 5) : Sys2Proof.Laws.Wf.Statement (Instr.slli b rd ra n) := fun _ _ h => Sys2Proof.Machine.decodeJig_wf h
theorem Sys2Proof.Laws.Wf.srli (b : Bench7) (rd ra : Reg) (n : BitVec 5) : Sys2Proof.Laws.Wf.Statement (Instr.srli b rd ra n) := fun _ _ h => Sys2Proof.Machine.decodeJig_wf h
theorem Sys2Proof.Laws.Wf.srai (b : Bench7) (rd ra : Reg) (n : BitVec 5) : Sys2Proof.Laws.Wf.Statement (Instr.srai b rd ra n) := fun _ _ h => Sys2Proof.Machine.decodeJig_wf h
theorem Sys2Proof.Laws.Wf.addi (b : Bench7) (rd ra : Reg) (imm : BitVec 16) : Sys2Proof.Laws.Wf.Statement (Instr.addi b rd ra imm) := fun _ _ h => Sys2Proof.Machine.decodeJig_wf h
theorem Sys2Proof.Laws.Wf.andi (b : Bench7) (rd ra : Reg) (imm : BitVec 16) : Sys2Proof.Laws.Wf.Statement (Instr.andi b rd ra imm) := fun _ _ h => Sys2Proof.Machine.decodeJig_wf h
theorem Sys2Proof.Laws.Wf.ori (b : Bench7) (rd ra : Reg) (imm : BitVec 16) : Sys2Proof.Laws.Wf.Statement (Instr.ori b rd ra imm) := fun _ _ h => Sys2Proof.Machine.decodeJig_wf h
theorem Sys2Proof.Laws.Wf.xori (b : Bench7) (rd ra : Reg) (imm : BitVec 16) : Sys2Proof.Laws.Wf.Statement (Instr.xori b rd ra imm) := fun _ _ h => Sys2Proof.Machine.decodeJig_wf h
theorem Sys2Proof.Laws.Wf.slti (b : Bench7) (rd ra : Reg) (imm : BitVec 16) : Sys2Proof.Laws.Wf.Statement (Instr.slti b rd ra imm) := fun _ _ h => Sys2Proof.Machine.decodeJig_wf h
theorem Sys2Proof.Laws.Wf.sltiu (b : Bench7) (rd ra : Reg) (imm : BitVec 16) : Sys2Proof.Laws.Wf.Statement (Instr.sltiu b rd ra imm) := fun _ _ h => Sys2Proof.Machine.decodeJig_wf h
theorem Sys2Proof.Laws.Wf.lui (b : Bench7) (rd : Reg) (imm : BitVec 16) : Sys2Proof.Laws.Wf.Statement (Instr.lui b rd imm) := fun _ _ h => Sys2Proof.Machine.decodeJig_wf h
theorem Sys2Proof.Laws.Wf.lb (b : Bench7) (rd ra : Reg) (imm : BitVec 16) : Sys2Proof.Laws.Wf.Statement (Instr.lb b rd ra imm) := fun _ _ h => Sys2Proof.Machine.decodeJig_wf h
theorem Sys2Proof.Laws.Wf.lbu (b : Bench7) (rd ra : Reg) (imm : BitVec 16) : Sys2Proof.Laws.Wf.Statement (Instr.lbu b rd ra imm) := fun _ _ h => Sys2Proof.Machine.decodeJig_wf h
theorem Sys2Proof.Laws.Wf.lh (b : Bench7) (rd ra : Reg) (imm : BitVec 16) : Sys2Proof.Laws.Wf.Statement (Instr.lh b rd ra imm) := fun _ _ h => Sys2Proof.Machine.decodeJig_wf h
theorem Sys2Proof.Laws.Wf.lhu (b : Bench7) (rd ra : Reg) (imm : BitVec 16) : Sys2Proof.Laws.Wf.Statement (Instr.lhu b rd ra imm) := fun _ _ h => Sys2Proof.Machine.decodeJig_wf h
theorem Sys2Proof.Laws.Wf.lw (b : Bench7) (rd ra : Reg) (imm : BitVec 16) : Sys2Proof.Laws.Wf.Statement (Instr.lw b rd ra imm) := fun _ _ h => Sys2Proof.Machine.decodeJig_wf h
theorem Sys2Proof.Laws.Wf.sb (b : Bench7) (rs ra : Reg) (imm : BitVec 16) : Sys2Proof.Laws.Wf.Statement (Instr.sb b rs ra imm) := fun _ _ h => Sys2Proof.Machine.decodeJig_wf h
theorem Sys2Proof.Laws.Wf.sh (b : Bench7) (rs ra : Reg) (imm : BitVec 16) : Sys2Proof.Laws.Wf.Statement (Instr.sh b rs ra imm) := fun _ _ h => Sys2Proof.Machine.decodeJig_wf h
theorem Sys2Proof.Laws.Wf.sw (b : Bench7) (rs ra : Reg) (imm : BitVec 16) : Sys2Proof.Laws.Wf.Statement (Instr.sw b rs ra imm) := fun _ _ h => Sys2Proof.Machine.decodeJig_wf h
theorem Sys2Proof.Laws.Wf.beq (b : Bench7) (ra rb : Reg) (off : BitVec 16) : Sys2Proof.Laws.Wf.Statement (Instr.beq b ra rb off) := fun _ _ h => Sys2Proof.Machine.decodeJig_wf h
theorem Sys2Proof.Laws.Wf.bne (b : Bench7) (ra rb : Reg) (off : BitVec 16) : Sys2Proof.Laws.Wf.Statement (Instr.bne b ra rb off) := fun _ _ h => Sys2Proof.Machine.decodeJig_wf h
theorem Sys2Proof.Laws.Wf.blt (b : Bench7) (ra rb : Reg) (off : BitVec 16) : Sys2Proof.Laws.Wf.Statement (Instr.blt b ra rb off) := fun _ _ h => Sys2Proof.Machine.decodeJig_wf h
theorem Sys2Proof.Laws.Wf.bge (b : Bench7) (ra rb : Reg) (off : BitVec 16) : Sys2Proof.Laws.Wf.Statement (Instr.bge b ra rb off) := fun _ _ h => Sys2Proof.Machine.decodeJig_wf h
theorem Sys2Proof.Laws.Wf.bltu (b : Bench7) (ra rb : Reg) (off : BitVec 16) : Sys2Proof.Laws.Wf.Statement (Instr.bltu b ra rb off) := fun _ _ h => Sys2Proof.Machine.decodeJig_wf h
theorem Sys2Proof.Laws.Wf.bgeu (b : Bench7) (ra rb : Reg) (off : BitVec 16) : Sys2Proof.Laws.Wf.Statement (Instr.bgeu b ra rb off) := fun _ _ h => Sys2Proof.Machine.decodeJig_wf h
theorem Sys2Proof.Laws.Wf.j (b : Bench7) (off : BitVec 26) : Sys2Proof.Laws.Wf.Statement (Instr.j b off) := fun _ _ h => Sys2Proof.Machine.decodeJig_wf h
theorem Sys2Proof.Laws.Wf.jal (b : Bench7) (off : BitVec 26) : Sys2Proof.Laws.Wf.Statement (Instr.jal b off) := fun _ _ h => Sys2Proof.Machine.decodeJig_wf h
theorem Sys2Proof.Laws.Wf.jr (b : Bench7) (ra : Reg) : Sys2Proof.Laws.Wf.Statement (Instr.jr b ra) := fun _ _ h => Sys2Proof.Machine.decodeJig_wf h
theorem Sys2Proof.Laws.Wf.jalr (b : Bench7) (ra : Reg) : Sys2Proof.Laws.Wf.Statement (Instr.jalr b ra) := fun _ _ h => Sys2Proof.Machine.decodeJig_wf h
theorem Sys2Proof.Laws.Wf.loop (b : Bench7) (lvl : BitVec 2) (rc : Reg) (off : BitVec 16) : Sys2Proof.Laws.Wf.Statement (Instr.loop b lvl rc off) := fun _ _ h => Sys2Proof.Machine.decodeJig_wf h
theorem Sys2Proof.Laws.Wf.loopi (b : Bench7) (lvl : BitVec 2) (cnt : BitVec 12) (off : BitVec 12) : Sys2Proof.Laws.Wf.Statement (Instr.loopi b lvl cnt off) := fun _ _ h => Sys2Proof.Machine.decodeJig_wf h
theorem Sys2Proof.Laws.Wf.mfj (b : Bench7) (rd : Reg) (idx : BitVec 5) : Sys2Proof.Laws.Wf.Statement (Instr.mfj b rd idx) := fun _ _ h => Sys2Proof.Machine.decodeJig_wf h
theorem Sys2Proof.Laws.Wf.mtj (b : Bench7) (idx : BitVec 5) (ra : Reg) : Sys2Proof.Laws.Wf.Statement (Instr.mtj b idx ra) := fun _ _ h => Sys2Proof.Machine.decodeJig_wf h
theorem Sys2Proof.Laws.Wf.setmode (b : Bench7) (m : BitVec 2) : Sys2Proof.Laws.Wf.Statement (Instr.setmode b m) := fun _ _ h => Sys2Proof.Machine.decodeJig_wf h
theorem Sys2Proof.Laws.Wf.isync (b : Bench7) : Sys2Proof.Laws.Wf.Statement (Instr.isync b) := fun _ _ h => Sys2Proof.Machine.decodeJig_wf h
theorem Sys2Proof.Laws.Wf.wstroke (b : Bench7) : Sys2Proof.Laws.Wf.Statement (Instr.wstroke b) := fun _ _ h => Sys2Proof.Machine.decodeJig_wf h
theorem Sys2Proof.Laws.Wf.yield (b : Bench7) : Sys2Proof.Laws.Wf.Statement (Instr.yield b) := fun _ _ h => Sys2Proof.Machine.decodeJig_wf h
theorem Sys2Proof.Laws.Wf.tend (b : Bench7) : Sys2Proof.Laws.Wf.Statement (Instr.tend b) := fun _ _ h => Sys2Proof.Machine.decodeJig_wf h
theorem Sys2Proof.Laws.Wf.trap (b : Bench7) (n : BitVec 8) : Sys2Proof.Laws.Wf.Statement (Instr.trap b n) := fun _ _ h => Sys2Proof.Machine.decodeJig_wf h
theorem Sys2Proof.Laws.Wf.eret (b : Bench7) : Sys2Proof.Laws.Wf.Statement (Instr.eret b) := fun _ _ h => Sys2Proof.Machine.decodeJig_wf h
theorem Sys2Proof.Laws.Wf.shape (b : Bench7) (bd : Board4) (rows rbytes : BitVec 6) (ew : BitVec 2) : Sys2Proof.Laws.Wf.Statement (Instr.shape b bd rows rbytes ew) := fun _ _ h => Sys2Proof.Machine.decodeJig_wf h
theorem Sys2Proof.Laws.Wf.bld (b : Bench7) (bd : Board4) (t : Bool) (ra rb : Reg) : Sys2Proof.Laws.Wf.Statement (Instr.bld b bd t ra rb) := fun _ _ h => Sys2Proof.Machine.decodeJig_wf h
theorem Sys2Proof.Laws.Wf.bst (b : Bench7) (bs : Board4) (t : Bool) (ra rb : Reg) : Sys2Proof.Laws.Wf.Statement (Instr.bst b bs t ra rb) := fun _ _ h => Sys2Proof.Machine.decodeJig_wf h
theorem Sys2Proof.Laws.Wf.accz (b : Bench7) (ty : BitVec 3) : Sys2Proof.Laws.Wf.Statement (Instr.accz b ty) := fun _ _ h => Sys2Proof.Machine.decodeJig_wf h
theorem Sys2Proof.Laws.Wf.acc (b : Bench7) (bs : Board4) (ty : BitVec 3) (row0 : BitVec 6) : Sys2Proof.Laws.Wf.Statement (Instr.acc b bs ty row0) := fun _ _ h => Sys2Proof.Machine.decodeJig_wf h
theorem Sys2Proof.Laws.Wf.acci (b : Bench7) (bs bi : Board4) (ty : BitVec 3) : Sys2Proof.Laws.Wf.Statement (Instr.acci b bs bi ty) := fun _ _ h => Sys2Proof.Machine.decodeJig_wf h
theorem Sys2Proof.Laws.Wf.releaseGu (b : Bench7) : Sys2Proof.Laws.Wf.Statement (Instr.releaseGu b) := fun _ _ h => Sys2Proof.Machine.decodeJig_wf h
theorem Sys2Proof.Laws.Wf.releaseBs (b : Bench7) (bs : Board4) : Sys2Proof.Laws.Wf.Statement (Instr.releaseBs b bs) := fun _ _ h => Sys2Proof.Machine.decodeJig_wf h
theorem Sys2Proof.Laws.Wf.drain (b : Bench7) (fmt : BitVec 2) (t : Bool) (ra rb : Reg) (row0 nrows : BitVec 6) : Sys2Proof.Laws.Wf.Statement (Instr.drain b fmt t ra rb row0 nrows) := fun _ _ h => Sys2Proof.Machine.decodeJig_wf h
theorem Sys2Proof.Laws.Wf.perm (b : Bench7) (bd bs : Board4) (p : BitVec 4) : Sys2Proof.Laws.Wf.Statement (Instr.perm b bd bs p) := fun _ _ h => Sys2Proof.Machine.decodeJig_wf h
theorem Sys2Proof.Laws.Wf.trn (b : Bench7) (bd bs : Board4) : Sys2Proof.Laws.Wf.Statement (Instr.trn b bd bs) := fun _ _ h => Sys2Proof.Machine.decodeJig_wf h
theorem Sys2Proof.Laws.Wf.btrn (b : Bench7) (bd bs : Board4) : Sys2Proof.Laws.Wf.Statement (Instr.btrn b bd bs) := fun _ _ h => Sys2Proof.Machine.decodeJig_wf h
theorem Sys2Proof.Laws.Wf.ksi (b : Bench7) (p : BitVec 4) (bs : Board4) : Sys2Proof.Laws.Wf.Statement (Instr.ksi b p bs) := fun _ _ h => Sys2Proof.Machine.decodeJig_wf h
theorem Sys2Proof.Laws.Wf.ksr (b : Bench7) (p : BitVec 4) (bs : Board4) (kt : BitVec 2) (dir : Bool) : Sys2Proof.Laws.Wf.Statement (Instr.ksr b p bs kt dir) := fun _ _ h => Sys2Proof.Machine.decodeJig_wf h
theorem Sys2Proof.Laws.Wf.ktk (b : Bench7) (p : BitVec 4) (bs : Board4) (kt : BitVec 2) (dir : Bool) (k : BitVec 8) : Sys2Proof.Laws.Wf.Statement (Instr.ktk b p bs kt dir k) := fun _ _ h => Sys2Proof.Machine.decodeJig_wf h
theorem Sys2Proof.Laws.Wf.psv (b : Bench7) (ra : Reg) (p : BitVec 4) : Sys2Proof.Laws.Wf.Statement (Instr.psv b ra p) := fun _ _ h => Sys2Proof.Machine.decodeJig_wf h
theorem Sys2Proof.Laws.Wf.prs (b : Bench7) (p : BitVec 4) (ra : Reg) : Sys2Proof.Laws.Wf.Statement (Instr.prs b p ra) := fun _ _ h => Sys2Proof.Machine.decodeJig_wf h
theorem Sys2Proof.Laws.Wf.sgo (b : Bench7) (rd ra : Reg) : Sys2Proof.Laws.Wf.Statement (Instr.sgo b rd ra) := fun _ _ h => Sys2Proof.Machine.decodeJig_wf h
theorem Sys2Proof.Laws.Wf.twait (b : Bench7) (rd ra : Reg) : Sys2Proof.Laws.Wf.Statement (Instr.twait b rd ra) := fun _ _ h => Sys2Proof.Machine.decodeJig_wf h
theorem Sys2Proof.Laws.Wf.ttest (b : Bench7) (rd ra : Reg) : Sys2Proof.Laws.Wf.Statement (Instr.ttest b rd ra) := fun _ _ h => Sys2Proof.Machine.decodeJig_wf h
theorem Sys2Proof.Laws.Wf.rres (b : Bench7) (rd : Reg) (rack : BitVec 2) : Sys2Proof.Laws.Wf.Statement (Instr.rres b rd rack) := fun _ _ h => Sys2Proof.Machine.decodeJig_wf h
theorem Sys2Proof.Laws.Wf.rcmt (b : Bench7) (rack : BitVec 2) : Sys2Proof.Laws.Wf.Statement (Instr.rcmt b rack) := fun _ _ h => Sys2Proof.Machine.decodeJig_wf h
theorem Sys2Proof.Laws.Wf.racq (b : Bench7) (rd : Reg) (rack : BitVec 2) : Sys2Proof.Laws.Wf.Statement (Instr.racq b rd rack) := fun _ _ h => Sys2Proof.Machine.decodeJig_wf h
theorem Sys2Proof.Laws.Wf.rrel (b : Bench7) (rack : BitVec 2) : Sys2Proof.Laws.Wf.Statement (Instr.rrel b rack) := fun _ _ h => Sys2Proof.Machine.decodeJig_wf h
theorem Sys2Proof.Laws.Wf.msgPut (b : Bench7) (rd ra : Reg) : Sys2Proof.Laws.Wf.Statement (Instr.msgPut b rd ra) := fun _ _ h => Sys2Proof.Machine.decodeJig_wf h
theorem Sys2Proof.Laws.Wf.msgGet (b : Bench7) (rd ra : Reg) : Sys2Proof.Laws.Wf.Statement (Instr.msgGet b rd ra) := fun _ _ h => Sys2Proof.Machine.decodeJig_wf h
theorem Sys2Proof.Laws.Wf.msgAccum (b : Bench7) (rd ra : Reg) : Sys2Proof.Laws.Wf.Statement (Instr.msgAccum b rd ra) := fun _ _ h => Sys2Proof.Machine.decodeJig_wf h
theorem Sys2Proof.Laws.Wf.msgPost (b : Bench7) (rd ra : Reg) : Sys2Proof.Laws.Wf.Statement (Instr.msgPost b rd ra) := fun _ _ h => Sys2Proof.Machine.decodeJig_wf h
theorem Sys2Proof.Laws.Wf.dadd (b : Bench7) (rd ra rb : Reg) : Sys2Proof.Laws.Wf.Statement (Instr.dadd b rd ra rb) := fun _ _ h => Sys2Proof.Machine.decodeJig_wf h
theorem Sys2Proof.Laws.Wf.dsett (b : Bench7) (rd ra rb : Reg) : Sys2Proof.Laws.Wf.Statement (Instr.dsett b rd ra rb) := fun _ _ h => Sys2Proof.Machine.decodeJig_wf h
theorem Sys2Proof.Laws.Wf.dwait (b : Bench7) (rd ra : Reg) : Sys2Proof.Laws.Wf.Statement (Instr.dwait b rd ra) := fun _ _ h => Sys2Proof.Machine.decodeJig_wf h
theorem Sys2Proof.Laws.Wf.drd (b : Bench7) (rd ra : Reg) : Sys2Proof.Laws.Wf.Statement (Instr.drd b rd ra) := fun _ _ h => Sys2Proof.Machine.decodeJig_wf h
theorem Sys2Proof.Laws.Wf.dclr (b : Bench7) (rd ra : Reg) : Sys2Proof.Laws.Wf.Statement (Instr.dclr b rd ra) := fun _ _ h => Sys2Proof.Machine.decodeJig_wf h
theorem Sys2Proof.Laws.Wf.interruptEntry (b : Bench7) : Sys2Proof.Laws.Wf.Statement (Instr.interruptEntry b) := fun _ _ h => Sys2Proof.Machine.decodeJig_wf h
theorem Sys2Proof.Laws.Wf.deadlinePending (b : Bench7) : Sys2Proof.Laws.Wf.Statement (Instr.deadlinePending b) := fun _ _ h => Sys2Proof.Machine.decodeJig_wf h
theorem Sys2Proof.Laws.Wf.branchResolve (b : Bench7) : Sys2Proof.Laws.Wf.Statement (Instr.branchResolve b) := fun _ _ h => Sys2Proof.Machine.decodeJig_wf h
theorem Sys2Proof.Laws.Wf.marquetryComplete (b : Bench7) (u : MUnit) : Sys2Proof.Laws.Wf.Statement (Instr.marquetryComplete b u) := fun _ _ h => Sys2Proof.Machine.decodeJig_wf h
theorem Sys2Proof.Laws.Wf.lockstepMismatch (b : Bench7) (stream : Bool) : Sys2Proof.Laws.Wf.Statement (Instr.lockstepMismatch b stream) := fun _ _ h => Sys2Proof.Machine.decodeJig_wf h
theorem Sys2Proof.Laws.Wf.strokeBoundary : Sys2Proof.Laws.Wf.Statement (Instr.strokeBoundary) := fun _ _ h => Sys2Proof.Machine.decodeJig_wf h
theorem Sys2Proof.Laws.Wf.drainEnd (b : Bench7) : Sys2Proof.Laws.Wf.Statement (Instr.drainEnd b) := fun _ _ h => Sys2Proof.Machine.decodeJig_wf h
theorem Sys2Proof.Laws.Wf.stroke (port : Port4) (m : Marker) : Sys2Proof.Laws.Wf.Statement (Instr.stroke port m) := fun _ _ h => Sys2Proof.Machine.decodeJig_wf h
theorem Sys2Proof.Laws.Wf.strokeHoldover : Sys2Proof.Laws.Wf.Statement (Instr.strokeHoldover) := fun _ _ h => Sys2Proof.Machine.decodeJig_wf h
theorem Sys2Proof.Laws.Wf.enterMaster : Sys2Proof.Laws.Wf.Statement (Instr.enterMaster) := fun _ _ h => Sys2Proof.Machine.decodeJig_wf h
theorem Sys2Proof.Laws.Wf.strokeFreerun : Sys2Proof.Laws.Wf.Statement (Instr.strokeFreerun) := fun _ _ h => Sys2Proof.Machine.decodeJig_wf h
theorem Sys2Proof.Laws.Wf.latencyMeasure (port : Port4) (now : Word) : Sys2Proof.Laws.Wf.Statement (Instr.latencyMeasure port now) := fun _ _ h => Sys2Proof.Machine.decodeJig_wf h
theorem Sys2Proof.Laws.Wf.timingReq (port : Port4) (ts turnaround : Word) : Sys2Proof.Laws.Wf.Statement (Instr.timingReq port ts turnaround) := fun _ _ h => Sys2Proof.Machine.decodeJig_wf h
theorem Sys2Proof.Laws.Wf.timingRsp (port : Port4) (ts turnaround now : Word) : Sys2Proof.Laws.Wf.Statement (Instr.timingRsp port ts turnaround now) := fun _ _ h => Sys2Proof.Machine.decodeJig_wf h
theorem Sys2Proof.Laws.Wf.slotStart (port : Port4) (slot : BitVec 6) : Sys2Proof.Laws.Wf.Statement (Instr.slotStart port slot) := fun _ _ h => Sys2Proof.Machine.decodeJig_wf h
theorem Sys2Proof.Laws.Wf.idle (port : Port4) (h : FlitHdr) : Sys2Proof.Laws.Wf.Statement (Instr.idle port h) := fun _ _ h => Sys2Proof.Machine.decodeJig_wf h
theorem Sys2Proof.Laws.Wf.slotData (port : Port4) (h : FlitHdr) (payload : List Byte) : Sys2Proof.Laws.Wf.Statement (Instr.slotData port h payload) := fun _ _ h => Sys2Proof.Machine.decodeJig_wf h
theorem Sys2Proof.Laws.Wf.slotEnd (port : Port4) (h : FlitHdr) (payload : List Byte) : Sys2Proof.Laws.Wf.Statement (Instr.slotEnd port h payload) := fun _ _ h => Sys2Proof.Machine.decodeJig_wf h
theorem Sys2Proof.Laws.Wf.put (port : Port4) (h : FlitHdr) (m : MsgHdr) (data : List Byte) : Sys2Proof.Laws.Wf.Statement (Instr.put port h m data) := fun _ _ h => Sys2Proof.Machine.decodeJig_wf h
theorem Sys2Proof.Laws.Wf.get (port : Port4) (h : FlitHdr) (m : MsgHdr) : Sys2Proof.Laws.Wf.Statement (Instr.get port h m) := fun _ _ h => Sys2Proof.Machine.decodeJig_wf h
theorem Sys2Proof.Laws.Wf.getData (port : Port4) (h : FlitHdr) (m : MsgHdr) (data : List Byte) : Sys2Proof.Laws.Wf.Statement (Instr.getData port h m data) := fun _ _ h => Sys2Proof.Machine.decodeJig_wf h
theorem Sys2Proof.Laws.Wf.accumulate (port : Port4) (h : FlitHdr) (m : MsgHdr) (data : List Byte) : Sys2Proof.Laws.Wf.Statement (Instr.accumulate port h m data) := fun _ _ h => Sys2Proof.Machine.decodeJig_wf h
theorem Sys2Proof.Laws.Wf.post (port : Port4) (h : FlitHdr) (m : MsgHdr) : Sys2Proof.Laws.Wf.Statement (Instr.post port h m) := fun _ _ h => Sys2Proof.Machine.decodeJig_wf h
theorem Sys2Proof.Laws.Wf.dowel (port : Port4) (h : FlitHdr) (m : MsgHdr) : Sys2Proof.Laws.Wf.Statement (Instr.dowel port h m) := fun _ _ h => Sys2Proof.Machine.decodeJig_wf h
theorem Sys2Proof.Laws.Wf.ack (port : Port4) (h : FlitHdr) (m : MsgHdr) : Sys2Proof.Laws.Wf.Statement (Instr.ack port h m) := fun _ _ h => Sys2Proof.Machine.decodeJig_wf h
theorem Sys2Proof.Laws.Wf.train (port : Port4) (t : TrainInfo) : Sys2Proof.Laws.Wf.Statement (Instr.train port t) := fun _ _ h => Sys2Proof.Machine.decodeJig_wf h
theorem Sys2Proof.Laws.Wf.linkTrainingStep (port : Port4) : Sys2Proof.Laws.Wf.Statement (Instr.linkTrainingStep port) := fun _ _ h => Sys2Proof.Machine.decodeJig_wf h
theorem Sys2Proof.Laws.Wf.linkTrainTimeout (port : Port4) : Sys2Proof.Laws.Wf.Statement (Instr.linkTrainTimeout port) := fun _ _ h => Sys2Proof.Machine.decodeJig_wf h
theorem Sys2Proof.Laws.Wf.linkTrainRetry (port : Port4) : Sys2Proof.Laws.Wf.Statement (Instr.linkTrainRetry port) := fun _ _ h => Sys2Proof.Machine.decodeJig_wf h
theorem Sys2Proof.Laws.Wf.linkMarginCheck (port : Port4) (berHigh : Bool) (margin uncorrectable : BitVec 8) : Sys2Proof.Laws.Wf.Statement (Instr.linkMarginCheck port berHigh margin uncorrectable) := fun _ _ h => Sys2Proof.Machine.decodeJig_wf h
theorem Sys2Proof.Laws.Wf.linkDown (port : Port4) (cause : BitVec 2) : Sys2Proof.Laws.Wf.Statement (Instr.linkDown port cause) := fun _ _ h => Sys2Proof.Machine.decodeJig_wf h
theorem Sys2Proof.Laws.Wf.msgTimeout (b : Bench7) (tag : BitVec 6) : Sys2Proof.Laws.Wf.Statement (Instr.msgTimeout b tag) := fun _ _ h => Sys2Proof.Machine.decodeJig_wf h
theorem Sys2Proof.Laws.Wf.bypassPump (mv : Int) : Sys2Proof.Laws.Wf.Statement (Instr.bypassPump mv) := fun _ _ h => Sys2Proof.Machine.decodeJig_wf h
theorem Sys2Proof.Laws.Wf.nocRequest (n : Nat) (bad : Option NocLink) : Sys2Proof.Laws.Wf.Statement (Instr.nocRequest n bad) := fun _ _ h => Sys2Proof.Machine.decodeJig_wf h
theorem Sys2Proof.Laws.Wf.nocResponse (n : Nat) : Sys2Proof.Laws.Wf.Statement (Instr.nocResponse n) := fun _ _ h => Sys2Proof.Machine.decodeJig_wf h
theorem Sys2Proof.Laws.Wf.nocData (n : Nat) (crcOk : Bool) (bad : Option NocLink) : Sys2Proof.Laws.Wf.Statement (Instr.nocData n crcOk bad) := fun _ _ h => Sys2Proof.Machine.decodeJig_wf h
theorem Sys2Proof.Laws.Wf.ageIncrement (mesh : NocMesh) (n : Nat) : Sys2Proof.Laws.Wf.Statement (Instr.ageIncrement mesh n) := fun _ _ h => Sys2Proof.Machine.decodeJig_wf h
theorem Sys2Proof.Laws.Wf.nocWatchdog (b : Bench7) (tag : BitVec 6) : Sys2Proof.Laws.Wf.Statement (Instr.nocWatchdog b tag) := fun _ _ h => Sys2Proof.Machine.decodeJig_wf h
theorem Sys2Proof.Laws.Wf.portRetry (b : Bench7) (cls : SplitClass) (portB write : Bool) (addr : BitVec 21) (data : List Byte) : Sys2Proof.Laws.Wf.Statement (Instr.portRetry b cls portB write addr data) := fun _ _ h => Sys2Proof.Machine.decodeJig_wf h
theorem Sys2Proof.Laws.Wf.patrolScrub (site : MemSite) : Sys2Proof.Laws.Wf.Statement (Instr.patrolScrub site) := fun _ _ h => Sys2Proof.Machine.decodeJig_wf h
theorem Sys2Proof.Laws.Wf.forcedScrub (b : Bench7) (cls : SplitClass) (quarter : BitVec 6) : Sys2Proof.Laws.Wf.Statement (Instr.forcedScrub b cls quarter) := fun _ _ h => Sys2Proof.Machine.decodeJig_wf h
theorem Sys2Proof.Laws.Wf.scrubVerify (b : Bench7) : Sys2Proof.Laws.Wf.Statement (Instr.scrubVerify b) := fun _ _ h => Sys2Proof.Machine.decodeJig_wf h
theorem Sys2Proof.Laws.Wf.secureWipeDone (micros : Nat) : Sys2Proof.Laws.Wf.Statement (Instr.secureWipeDone micros) := fun _ _ h => Sys2Proof.Machine.decodeJig_wf h
theorem Sys2Proof.Laws.Wf.clearDone : Sys2Proof.Laws.Wf.Statement (Instr.clearDone) := fun _ _ h => Sys2Proof.Machine.decodeJig_wf h
theorem Sys2Proof.Laws.Wf.benchClearDone (b : Bench7) : Sys2Proof.Laws.Wf.Statement (Instr.benchClearDone b) := fun _ _ h => Sys2Proof.Machine.decodeJig_wf h
theorem Sys2Proof.Laws.Wf.veneerInvalDone (part : Part3) : Sys2Proof.Laws.Wf.Statement (Instr.veneerInvalDone part) := fun _ _ h => Sys2Proof.Machine.decodeJig_wf h
theorem Sys2Proof.Laws.Wf.glbMbistCtl (v : Word) : Sys2Proof.Laws.Wf.Statement (Instr.glbMbistCtl v) := fun _ _ h => Sys2Proof.Machine.decodeJig_wf h
theorem Sys2Proof.Laws.Wf.planeRunBegin (b : Bench7) : Sys2Proof.Laws.Wf.Statement (Instr.planeRunBegin b) := fun _ _ h => Sys2Proof.Machine.decodeJig_wf h
theorem Sys2Proof.Laws.Wf.planeRunEnd (fails : List PlaneFail) : Sys2Proof.Laws.Wf.Statement (Instr.planeRunEnd fails) := fun _ _ h => Sys2Proof.Machine.decodeJig_wf h
theorem Sys2Proof.Laws.Wf.descriptorFetch (b : Bench7) : Sys2Proof.Laws.Wf.Statement (Instr.descriptorFetch b) := fun _ _ h => Sys2Proof.Machine.decodeJig_wf h
theorem Sys2Proof.Laws.Wf.transferIssue (b : Bench7) : Sys2Proof.Laws.Wf.Statement (Instr.transferIssue b) := fun _ _ h => Sys2Proof.Machine.decodeJig_wf h
theorem Sys2Proof.Laws.Wf.transferComplete (b : Bench7) (tag : BitVec 6) : Sys2Proof.Laws.Wf.Statement (Instr.transferComplete b tag) := fun _ _ h => Sys2Proof.Machine.decodeJig_wf h
theorem Sys2Proof.Laws.Wf.rdData (m : Module2) (tag : BitVec 12) (refused poison : Bool) (data : List Byte) : Sys2Proof.Laws.Wf.Statement (Instr.rdData m tag refused poison data) := fun _ _ h => Sys2Proof.Machine.decodeJig_wf h
theorem Sys2Proof.Laws.Wf.wrAck (m : Module2) (tag : BitVec 12) (refused : Bool) : Sys2Proof.Laws.Wf.Statement (Instr.wrAck m tag refused) := fun _ _ h => Sys2Proof.Machine.decodeJig_wf h
theorem Sys2Proof.Laws.Wf.snpInv (m : Module2) (tag : BitVec 12) (addr : BitVec 52) : Sys2Proof.Laws.Wf.Statement (Instr.snpInv m tag addr) := fun _ _ h => Sys2Proof.Machine.decodeJig_wf h
theorem Sys2Proof.Laws.Wf.hppRetrain (m : Module2) (line : BitVec 9) (ok : Bool) : Sys2Proof.Laws.Wf.Statement (Instr.hppRetrain m line ok) := fun _ _ h => Sys2Proof.Machine.decodeJig_wf h
theorem Sys2Proof.Laws.Wf.hppTimeout (m : Module2) (ok : Bool) : Sys2Proof.Laws.Wf.Statement (Instr.hppTimeout m ok) := fun _ _ h => Sys2Proof.Machine.decodeJig_wf h
theorem Sys2Proof.Laws.Wf.registerWrite (addr v : Word) (parityOk : Bool) : Sys2Proof.Laws.Wf.Statement (Instr.registerWrite addr v parityOk) := fun _ _ h => Sys2Proof.Machine.decodeJig_wf h
theorem Sys2Proof.Laws.Wf.glbTickCountLo : Sys2Proof.Laws.Wf.Statement (Instr.glbTickCountLo) := fun _ _ h => Sys2Proof.Machine.decodeJig_wf h
theorem Sys2Proof.Laws.Wf.glbTickCtl (v : Word) : Sys2Proof.Laws.Wf.Statement (Instr.glbTickCtl v) := fun _ _ h => Sys2Proof.Machine.decodeJig_wf h
theorem Sys2Proof.Laws.Wf.swrst (v : Word) : Sys2Proof.Laws.Wf.Statement (Instr.swrst v) := fun _ _ h => Sys2Proof.Machine.decodeJig_wf h
theorem Sys2Proof.Laws.Wf.lifecycleAdvance (v : Word) : Sys2Proof.Laws.Wf.Statement (Instr.lifecycleAdvance v) := fun _ _ h => Sys2Proof.Machine.decodeJig_wf h
theorem Sys2Proof.Laws.Wf.lifecycleDone : Sys2Proof.Laws.Wf.Statement (Instr.lifecycleDone) := fun _ _ h => Sys2Proof.Machine.decodeJig_wf h
theorem Sys2Proof.Laws.Wf.partCfgBench (v : Word) : Sys2Proof.Laws.Wf.Statement (Instr.partCfgBench v) := fun _ _ h => Sys2Proof.Machine.decodeJig_wf h
theorem Sys2Proof.Laws.Wf.partCfgSlots (v : Word) : Sys2Proof.Laws.Wf.Statement (Instr.partCfgSlots v) := fun _ _ h => Sys2Proof.Machine.decodeJig_wf h
theorem Sys2Proof.Laws.Wf.partCfgWaysAllowed (v : Word) : Sys2Proof.Laws.Wf.Statement (Instr.partCfgWaysAllowed v) := fun _ _ h => Sys2Proof.Machine.decodeJig_wf h
theorem Sys2Proof.Laws.Wf.partCfgControl (v : Word) : Sys2Proof.Laws.Wf.Statement (Instr.partCfgControl v) := fun _ _ h => Sys2Proof.Machine.decodeJig_wf h
theorem Sys2Proof.Laws.Wf.restRequest (v : Word) : Sys2Proof.Laws.Wf.Statement (Instr.restRequest v) := fun _ _ h => Sys2Proof.Machine.decodeJig_wf h
theorem Sys2Proof.Laws.Wf.restWake (v : Word) : Sys2Proof.Laws.Wf.Statement (Instr.restWake v) := fun _ _ h => Sys2Proof.Machine.decodeJig_wf h
theorem Sys2Proof.Laws.Wf.restEnter : Sys2Proof.Laws.Wf.Statement (Instr.restEnter) := fun _ _ h => Sys2Proof.Machine.decodeJig_wf h
theorem Sys2Proof.Laws.Wf.restExit (vsramOk vaonOk : Bool) : Sys2Proof.Laws.Wf.Statement (Instr.restExit vsramOk vaonOk) := fun _ _ h => Sys2Proof.Machine.decodeJig_wf h
theorem Sys2Proof.Laws.Wf.addrLo (v : Word) : Sys2Proof.Laws.Wf.Statement (Instr.addrLo v) := fun _ _ h => Sys2Proof.Machine.decodeJig_wf h
theorem Sys2Proof.Laws.Wf.addrHi (v : Word) : Sys2Proof.Laws.Wf.Statement (Instr.addrHi v) := fun _ _ h => Sys2Proof.Machine.decodeJig_wf h
theorem Sys2Proof.Laws.Wf.linkConfig (v : Word) : Sys2Proof.Laws.Wf.Statement (Instr.linkConfig v) := fun _ _ h => Sys2Proof.Machine.decodeJig_wf h
theorem Sys2Proof.Laws.Wf.policySet (v : Word) : Sys2Proof.Laws.Wf.Statement (Instr.policySet v) := fun _ _ h => Sys2Proof.Machine.decodeJig_wf h
theorem Sys2Proof.Laws.Wf.policyGet (v : Word) : Sys2Proof.Laws.Wf.Statement (Instr.policyGet v) := fun _ _ h => Sys2Proof.Machine.decodeJig_wf h
theorem Sys2Proof.Laws.Wf.telemetry (v : Word) : Sys2Proof.Laws.Wf.Statement (Instr.telemetry v) := fun _ _ h => Sys2Proof.Machine.decodeJig_wf h
theorem Sys2Proof.Laws.Wf.linkStatus (v : Word) : Sys2Proof.Laws.Wf.Statement (Instr.linkStatus v) := fun _ _ h => Sys2Proof.Machine.decodeJig_wf h
theorem Sys2Proof.Laws.Wf.benchRetire (v : Word) : Sys2Proof.Laws.Wf.Statement (Instr.benchRetire v) := fun _ _ h => Sys2Proof.Machine.decodeJig_wf h
theorem Sys2Proof.Laws.Wf.benchReadmit (v : Word) (fail : Option PlaneFail) : Sys2Proof.Laws.Wf.Statement (Instr.benchReadmit v fail) := fun _ _ h => Sys2Proof.Machine.decodeJig_wf h
theorem Sys2Proof.Laws.Wf.unknownOp (v : Word) : Sys2Proof.Laws.Wf.Statement (Instr.unknownOp v) := fun _ _ h => Sys2Proof.Machine.decodeJig_wf h
theorem Sys2Proof.Laws.Wf.glbPinmux (v : Word) : Sys2Proof.Laws.Wf.Statement (Instr.glbPinmux v) := fun _ _ h => Sys2Proof.Machine.decodeJig_wf h
theorem Sys2Proof.Laws.Wf.parkEnd (pin : BitVec 3) : Sys2Proof.Laws.Wf.Statement (Instr.parkEnd pin) := fun _ _ h => Sys2Proof.Machine.decodeJig_wf h
theorem Sys2Proof.Laws.Wf.cancel (part : Part3) : Sys2Proof.Laws.Wf.Statement (Instr.cancel part) := fun _ _ h => Sys2Proof.Machine.decodeJig_wf h
theorem Sys2Proof.Laws.Wf.resume (part : Part3) : Sys2Proof.Laws.Wf.Statement (Instr.resume part) := fun _ _ h => Sys2Proof.Machine.decodeJig_wf h
theorem Sys2Proof.Laws.Wf.cmdEnable (part : Part3) : Sys2Proof.Laws.Wf.Statement (Instr.cmdEnable part) := fun _ _ h => Sys2Proof.Machine.decodeJig_wf h
theorem Sys2Proof.Laws.Wf.cmdDisable (part : Part3) : Sys2Proof.Laws.Wf.Statement (Instr.cmdDisable part) := fun _ _ h => Sys2Proof.Machine.decodeJig_wf h
theorem Sys2Proof.Laws.Wf.evlogEnable (part : Part3) : Sys2Proof.Laws.Wf.Statement (Instr.evlogEnable part) := fun _ _ h => Sys2Proof.Machine.decodeJig_wf h
theorem Sys2Proof.Laws.Wf.evlogDisable (part : Part3) : Sys2Proof.Laws.Wf.Statement (Instr.evlogDisable part) := fun _ _ h => Sys2Proof.Machine.decodeJig_wf h
theorem Sys2Proof.Laws.Wf.doorbell (part : Part3) (v : Word) : Sys2Proof.Laws.Wf.Statement (Instr.doorbell part v) := fun _ _ h => Sys2Proof.Machine.decodeJig_wf h
theorem Sys2Proof.Laws.Wf.tenCplHead (part : Part3) (v : Word) : Sys2Proof.Laws.Wf.Statement (Instr.tenCplHead part v) := fun _ _ h => Sys2Proof.Machine.decodeJig_wf h
theorem Sys2Proof.Laws.Wf.tenXlatCtl (part : Part3) (v : Word) : Sys2Proof.Laws.Wf.Statement (Instr.tenXlatCtl part v) := fun _ _ h => Sys2Proof.Machine.decodeJig_wf h
theorem Sys2Proof.Laws.Wf.tenXlatInval (part : Part3) (v : Word) : Sys2Proof.Laws.Wf.Statement (Instr.tenXlatInval part v) := fun _ _ h => Sys2Proof.Machine.decodeJig_wf h
theorem Sys2Proof.Laws.Wf.xlatInvalDone (part : Part3) : Sys2Proof.Laws.Wf.Statement (Instr.xlatInvalDone part) := fun _ _ h => Sys2Proof.Machine.decodeJig_wf h
theorem Sys2Proof.Laws.Wf.tenIrqStatus (part : Part3) (v : Word) : Sys2Proof.Laws.Wf.Statement (Instr.tenIrqStatus part v) := fun _ _ h => Sys2Proof.Machine.decodeJig_wf h
theorem Sys2Proof.Laws.Wf.tenIrqMask (part : Part3) (v : Word) : Sys2Proof.Laws.Wf.Statement (Instr.tenIrqMask part v) := fun _ _ h => Sys2Proof.Machine.decodeJig_wf h
theorem Sys2Proof.Laws.Wf.tenVeneerWays (part : Part3) (v : Word) : Sys2Proof.Laws.Wf.Statement (Instr.tenVeneerWays part v) := fun _ _ h => Sys2Proof.Machine.decodeJig_wf h
theorem Sys2Proof.Laws.Wf.dowelDataAdd (part : Part3) (v : Word) : Sys2Proof.Laws.Wf.Statement (Instr.dowelDataAdd part v) := fun _ _ h => Sys2Proof.Machine.decodeJig_wf h
theorem Sys2Proof.Laws.Wf.dowelDataTarget (part : Part3) (v : Word) : Sys2Proof.Laws.Wf.Statement (Instr.dowelDataTarget part v) := fun _ _ h => Sys2Proof.Machine.decodeJig_wf h
theorem Sys2Proof.Laws.Wf.dowelDataClear (part : Part3) (v : Word) : Sys2Proof.Laws.Wf.Statement (Instr.dowelDataClear part v) := fun _ _ h => Sys2Proof.Machine.decodeJig_wf h
theorem Sys2Proof.Laws.Wf.commandFetch (part : Part3) : Sys2Proof.Laws.Wf.Statement (Instr.commandFetch part) := fun _ _ h => Sys2Proof.Machine.decodeJig_wf h
theorem Sys2Proof.Laws.Wf.nop (part : Part3) : Sys2Proof.Laws.Wf.Statement (Instr.nop part) := fun _ _ h => Sys2Proof.Machine.decodeJig_wf h
theorem Sys2Proof.Laws.Wf.load (part : Part3) : Sys2Proof.Laws.Wf.Statement (Instr.load part) := fun _ _ h => Sys2Proof.Machine.decodeJig_wf h
theorem Sys2Proof.Laws.Wf.run (part : Part3) : Sys2Proof.Laws.Wf.Statement (Instr.run part) := fun _ _ h => Sys2Proof.Machine.decodeJig_wf h
theorem Sys2Proof.Laws.Wf.seal (part : Part3) : Sys2Proof.Laws.Wf.Statement (Instr.seal part) := fun _ _ h => Sys2Proof.Machine.decodeJig_wf h
theorem Sys2Proof.Laws.Wf.planLoad (part : Part3) : Sys2Proof.Laws.Wf.Statement (Instr.planLoad part) := fun _ _ h => Sys2Proof.Machine.decodeJig_wf h
theorem Sys2Proof.Laws.Wf.barrier (part : Part3) : Sys2Proof.Laws.Wf.Statement (Instr.barrier part) := fun _ _ h => Sys2Proof.Machine.decodeJig_wf h
theorem Sys2Proof.Laws.Wf.completionWrite (part : Part3) : Sys2Proof.Laws.Wf.Statement (Instr.completionWrite part) := fun _ _ h => Sys2Proof.Machine.decodeJig_wf h
theorem Sys2Proof.Laws.Wf.eventAccept (source : BitVec 8) : Sys2Proof.Laws.Wf.Statement (Instr.eventAccept source) := fun _ _ h => Sys2Proof.Machine.decodeJig_wf h
theorem Sys2Proof.Laws.Wf.powerLoop (milliwatts : Nat) : Sys2Proof.Laws.Wf.Statement (Instr.powerLoop milliwatts) := fun _ _ h => Sys2Proof.Machine.decodeJig_wf h
theorem Sys2Proof.Laws.Wf.powerRelease : Sys2Proof.Laws.Wf.Statement (Instr.powerRelease) := fun _ _ h => Sys2Proof.Machine.decodeJig_wf h
theorem Sys2Proof.Laws.Wf.thermalCheck (readings : List Byte) : Sys2Proof.Laws.Wf.Statement (Instr.thermalCheck readings) := fun _ _ h => Sys2Proof.Machine.decodeJig_wf h
theorem Sys2Proof.Laws.Wf.columnEvaluation (col : Col4) : Sys2Proof.Laws.Wf.Statement (Instr.columnEvaluation col) := fun _ _ h => Sys2Proof.Machine.decodeJig_wf h
theorem Sys2Proof.Laws.Wf.telemetryFrame (col : Col4) (frame : BitVec 25) : Sys2Proof.Laws.Wf.Statement (Instr.telemetryFrame col frame) := fun _ _ h => Sys2Proof.Machine.decodeJig_wf h
theorem Sys2Proof.Laws.Wf.telemetryLoss (col : Col4) (long : Bool) : Sys2Proof.Laws.Wf.Statement (Instr.telemetryLoss col long) := fun _ _ h => Sys2Proof.Machine.decodeJig_wf h
theorem Sys2Proof.Laws.Wf.clockMonitor (domain : BitVec 6) : Sys2Proof.Laws.Wf.Statement (Instr.clockMonitor domain) := fun _ _ h => Sys2Proof.Machine.decodeJig_wf h
theorem Sys2Proof.Laws.Wf.fanTach (pin : BitVec 3) : Sys2Proof.Laws.Wf.Statement (Instr.fanTach pin) := fun _ _ h => Sys2Proof.Machine.decodeJig_wf h
theorem Sys2Proof.Laws.Wf.tamper (src : TamperSrc) (measured : Word) : Sys2Proof.Laws.Wf.Statement (Instr.tamper src measured) := fun _ _ h => Sys2Proof.Machine.decodeJig_wf h
theorem Sys2Proof.Laws.Wf.foremanLane (lane : BitVec 2) : Sys2Proof.Laws.Wf.Statement (Instr.foremanLane lane) := fun _ _ h => Sys2Proof.Machine.decodeJig_wf h
theorem Sys2Proof.Laws.Wf.foremanWatchdog : Sys2Proof.Laws.Wf.Statement (Instr.foremanWatchdog) := fun _ _ h => Sys2Proof.Machine.decodeJig_wf h
theorem Sys2Proof.Laws.Wf.powerOn : Sys2Proof.Laws.Wf.Statement (Instr.powerOn) := fun _ _ h => Sys2Proof.Machine.decodeJig_wf h
theorem Sys2Proof.Laws.Wf.pwrokFall (aonHeld : Bool) : Sys2Proof.Laws.Wf.Statement (Instr.pwrokFall aonHeld) := fun _ _ h => Sys2Proof.Machine.decodeJig_wf h
theorem Sys2Proof.Laws.Wf.resetN : Sys2Proof.Laws.Wf.Statement (Instr.resetN) := fun _ _ h => Sys2Proof.Machine.decodeJig_wf h
theorem Sys2Proof.Laws.Wf.resetRelease : Sys2Proof.Laws.Wf.Statement (Instr.resetRelease) := fun _ _ h => Sys2Proof.Machine.decodeJig_wf h
theorem Sys2Proof.Laws.Wf.fuseLoad : Sys2Proof.Laws.Wf.Statement (Instr.fuseLoad) := fun _ _ h => Sys2Proof.Machine.decodeJig_wf h
theorem Sys2Proof.Laws.Wf.hppTrained (m : Module2) (ok : Bool) : Sys2Proof.Laws.Wf.Statement (Instr.hppTrained m ok) := fun _ _ h => Sys2Proof.Machine.decodeJig_wf h
theorem Sys2Proof.Laws.Wf.bootImageCheck (sfdp : Word) (quad : Bool) (image : List Byte) : Sys2Proof.Laws.Wf.Statement (Instr.bootImageCheck sfdp quad image) := fun _ _ h => Sys2Proof.Machine.decodeJig_wf h
theorem Sys2Proof.Laws.Wf.flashTimeout : Sys2Proof.Laws.Wf.Statement (Instr.flashTimeout) := fun _ _ h => Sys2Proof.Machine.decodeJig_wf h
theorem Sys2Proof.Laws.Wf.clamp : Sys2Proof.Laws.Wf.Statement (Instr.clamp) := fun _ _ h => Sys2Proof.Machine.decodeJig_wf h
theorem Sys2Proof.Laws.Wf.tapReset : Sys2Proof.Laws.Wf.Statement (Instr.tapReset) := fun _ _ h => Sys2Proof.Machine.decodeJig_wf h
theorem Sys2Proof.Laws.Wf.extest (dr : Nat) : Sys2Proof.Laws.Wf.Statement (Instr.extest dr) := fun _ _ h => Sys2Proof.Machine.decodeJig_wf h
theorem Sys2Proof.Laws.Wf.idcode : Sys2Proof.Laws.Wf.Statement (Instr.idcode) := fun _ _ h => Sys2Proof.Machine.decodeJig_wf h
theorem Sys2Proof.Laws.Wf.samplePreload (dr : Nat) : Sys2Proof.Laws.Wf.Statement (Instr.samplePreload dr) := fun _ _ h => Sys2Proof.Machine.decodeJig_wf h
theorem Sys2Proof.Laws.Wf.extestPulse (dr : Nat) : Sys2Proof.Laws.Wf.Statement (Instr.extestPulse dr) := fun _ _ h => Sys2Proof.Machine.decodeJig_wf h
theorem Sys2Proof.Laws.Wf.extestTrain (dr : Nat) : Sys2Proof.Laws.Wf.Statement (Instr.extestTrain dr) := fun _ _ h => Sys2Proof.Machine.decodeJig_wf h
theorem Sys2Proof.Laws.Wf.highz (dr : Bool) : Sys2Proof.Laws.Wf.Statement (Instr.highz dr) := fun _ _ h => Sys2Proof.Machine.decodeJig_wf h
theorem Sys2Proof.Laws.Wf.fuseread : Sys2Proof.Laws.Wf.Statement (Instr.fuseread) := fun _ _ h => Sys2Proof.Machine.decodeJig_wf h
theorem Sys2Proof.Laws.Wf.bootinfo : Sys2Proof.Laws.Wf.Statement (Instr.bootinfo) := fun _ _ h => Sys2Proof.Machine.decodeJig_wf h
theorem Sys2Proof.Laws.Wf.clampread (region : BitVec 8) (addr : Word) : Sys2Proof.Laws.Wf.Statement (Instr.clampread region addr) := fun _ _ h => Sys2Proof.Machine.decodeJig_wf h
theorem Sys2Proof.Laws.Wf.fuseprog (dr : BitVec 40) : Sys2Proof.Laws.Wf.Statement (Instr.fuseprog dr) := fun _ _ h => Sys2Proof.Machine.decodeJig_wf h
theorem Sys2Proof.Laws.Wf.bypass (dr : Bool) : Sys2Proof.Laws.Wf.Statement (Instr.bypass dr) := fun _ _ h => Sys2Proof.Machine.decodeJig_wf h
theorem Sys2Proof.Laws.Wf.entdaa (addr : BitVec 7) : Sys2Proof.Laws.Wf.Statement (Instr.entdaa addr) := fun _ _ h => Sys2Proof.Machine.decodeJig_wf h
theorem Sys2Proof.Laws.Wf.setdasa (static dyn : BitVec 7) : Sys2Proof.Laws.Wf.Statement (Instr.setdasa static dyn) := fun _ _ h => Sys2Proof.Machine.decodeJig_wf h
theorem Sys2Proof.Laws.Wf.rstdaa : Sys2Proof.Laws.Wf.Statement (Instr.rstdaa) := fun _ _ h => Sys2Proof.Machine.decodeJig_wf h
theorem Sys2Proof.Laws.Wf.getpid : Sys2Proof.Laws.Wf.Statement (Instr.getpid) := fun _ _ h => Sys2Proof.Machine.decodeJig_wf h
theorem Sys2Proof.Laws.Wf.getbcr : Sys2Proof.Laws.Wf.Statement (Instr.getbcr) := fun _ _ h => Sys2Proof.Machine.decodeJig_wf h
theorem Sys2Proof.Laws.Wf.getdcr : Sys2Proof.Laws.Wf.Statement (Instr.getdcr) := fun _ _ h => Sys2Proof.Machine.decodeJig_wf h
theorem Sys2Proof.Laws.Wf.getstatus : Sys2Proof.Laws.Wf.Statement (Instr.getstatus) := fun _ _ h => Sys2Proof.Machine.decodeJig_wf h
theorem Sys2Proof.Laws.Wf.privateWrite (bytes : List Byte) : Sys2Proof.Laws.Wf.Statement (Instr.privateWrite bytes) := fun _ _ h => Sys2Proof.Machine.decodeJig_wf h
theorem Sys2Proof.Laws.Wf.privateRead : Sys2Proof.Laws.Wf.Statement (Instr.privateRead) := fun _ _ h => Sys2Proof.Machine.decodeJig_wf h
theorem Sys2Proof.Laws.Wf.reservedEncoding (b : Bench7) (w : Word) : Sys2Proof.Laws.Wf.Statement (Instr.reservedEncoding b w) := fun _ _ h => Sys2Proof.Machine.decodeJig_wf h
theorem Sys2Proof.Laws.Wf.flitCrcFailure (port : Port4) : Sys2Proof.Laws.Wf.Statement (Instr.flitCrcFailure port) := fun _ _ h => Sys2Proof.Machine.decodeJig_wf h
theorem Sys2Proof.Laws.Wf.hppFrame (m : Module2) (f : HppCtl) : Sys2Proof.Laws.Wf.Statement (Instr.hppFrame m f) := fun _ _ h => Sys2Proof.Machine.decodeJig_wf h
theorem Sys2Proof.Laws.Wf.tamperDeassert (src : TamperSrc) : Sys2Proof.Laws.Wf.Statement (Instr.tamperDeassert src) := fun _ _ h => Sys2Proof.Machine.decodeJig_wf h
theorem Sys2Proof.Laws.Wf.fuseprogDone : Sys2Proof.Laws.Wf.Statement (Instr.fuseprogDone) := fun _ _ h => Sys2Proof.Machine.decodeJig_wf h
end

