-- ==== Sys2Proof/Tests/Slice0.lean ====
section
/-! SUPPORT. Tests: the well-formedness checks, instruction words of the spec, and for each statement of
Certificates/Slice0/Obligations.lean a state and operands that meet its hypotheses (`hyp_…`), most with what then holds there.
Expected values come from the rule that the statement cites, worked by hand. -/

namespace Sys2Proof.Tests
set_option Elab.async false
open Sys2Proof Sys2Proof.Machine

/-! ### Well-formedness -/

/-- A flit header for port tests: channel 0, sequence number 0, partition 0, to device 5 from device 9. -/
def hdr : FlitHdr :=
  { vc := 0, cred := false, poison := false, seq := 0, ackseq := 0xFFF, nak := false, crvc := 0, crcnt := 0, dest := 5, src := 9
    slot := 2, part := 0 }

/-- A message header with these words. -/
def mh (w0 w1 w2 w3 : Word) : MsgHdr := { w0, w1, w2, w3 }

theorem test_wf_flits : (Instr.slotData 0 hdr (List.replicate 240 0)).wf = true ∧ (Instr.slotData 0 hdr []).wf = false ∧
    (Instr.slotEnd 0 hdr (List.replicate 239 0)).wf = false := by decide +kernel
theorem test_wf_messages : (Instr.put 0 hdr (mh 0 0 0 4) [1, 2, 3, 4]).wf = true ∧ (Instr.put 0 hdr (mh 0 0 0 4) [1]).wf = false ∧
    (Instr.getData 0 hdr (mh 0 0 0 4) []).wf = false ∧ (Instr.accumulate 0 hdr (mh 0 0 0 0) [1]).wf = false := by decide
theorem test_wf_planes : (Instr.planeRunEnd [{ bench := some 3, slice := 0, mem := 23, addr := 0 }]).wf = false ∧
    (Instr.planeRunEnd [{ bench := none, slice := 0, mem := 22, addr := 0 }]).wf = false ∧
    (Instr.benchReadmit 0 (some { bench := some 3, slice := 0, mem := 19, addr := 0 })).wf = false ∧
    (Instr.benchReadmit 0 (some { bench := some 3, slice := 0, mem := 20, addr := 0 })).wf = true := by decide
theorem test_wf_ranges : (Instr.foremanLane 3).wf = false ∧ (Instr.clockMonitor 60).wf = false ∧ (Instr.clockMonitor 59).wf = true ∧
    (Instr.thermalCheck []).wf = false ∧ (Instr.portRetry 3 .remote true true 0x1FFFFF [1, 2]).wf = false ∧
    (Instr.portRetry 3 .remote true true 0x1FFFFF [1]).wf = true := by decide
theorem test_wf_scans : (Instr.extest (2 ^ Config.boundaryCells)).wf = false ∧ (Instr.extestPulse (2 ^ Config.boundaryCells)).wf = false ∧
    (Instr.extestTrain (2 ^ Config.boundaryCells)).wf = false ∧ (Instr.samplePreload (2 ^ Config.boundaryCells)).wf = false := by
  simp [Instr.wf]
theorem test_wf_image (n : Nat) : (Instr.bootImageCheck 0 false (List.replicate n 0)).wf = decide (n ≤ 32768) := by simp [Instr.wf]

/-! ### Instruction words: the five worked examples of R184's section, one word of each group, and reserved ones -/

theorem test_words_of_the_spec :
    decodeJig 3 0x50240000 = some (.lw 3 1 4 0) ∧ decodeJig 3 0x84200020 = some (.bne 3 1 0 0x20) ∧
    decodeJig 3 0xD0801000 = some (.shape 3 2 0 0 1) ∧ decodeJig 3 0xE040C000 = some (.perm 3 1 0 3) ∧
    decodeJig 3 0xE0109045 = some (.ktk 3 2 4 2 false 8) := by decide
theorem test_words_reserved : decodeJig 3 0x000007FF = none ∧ decodeJig 3 0xFFFFFFFF = none := by decide

/-! ### States for the statements -/

/-- A task that runs in supervisor mode at the start of the instruction drawer. -/
def run0 : Ctx := { status := .running, pc := 0x400000 }
/-- A bench that runs it in context 0. -/
def b3 : Bench := { cur := some 0, ctxs := [(0, run0)], planeOk := true }
/-- A device that has started: identifier 5, every bench usable, benches 3, 4 and 12 in partition 0, and bench 3 as given. -/
def at3 (v : Bench) : State :=
  { dev := { phase := .running, bootDone := true, usable := BitVec.allOnes 128, id := 5, ids := [0x128, 0, 0, 110] }
    glb := { resetCause := 1, mboxBusy := false, clearDone := true, planeDone := true }
    tens := [(0, { enable := true, secAllow := true, mask := 0x1018 })]
    benches := [(3, v)] }
/-- Bench 3 with its running context as given. -/
def on3 (c : Ctx) : State := at3 { b3 with ctxs := [(0, c)] }
/-- The running task with registers 1 to 3 holding these values. -/
def regs (x y z : Word) : Ctx := { run0 with regs := [(1, x), (2, y), (3, z)] }
/-- The same device in secure mode of a task that may use it. -/
def secure0 : Ctx := { regs 0 0 0 with jstat := 0x4002 }
/-- The state after a command. -/
def nx (i : Instr) (s : State) : State := match exec i s with | .next t => t | _ => s

/-! ### The Jig core -/

theorem hyp_StepRunsTheFrontCommand : ({ on3 run0 with pending := [.strokeFreerun] } : State).pending = .strokeFreerun :: [] ∧
    (on3 run0).pending = [] := by decide
theorem test_idle_counts_a_cycle : (match step (on3 run0) with | .next t => decide (t.stroke.cycle = 1 ∧ (t.col 3).cyc = 1) | _ => false) = true := by
  decide +kernel

theorem hyp_AluResults : (on3 (regs 5 7 9)).issues 3 .plain [1, 2, 3] false = true ∧ (on3 (regs 5 7 9)).issues 3 .plain [1, 2] false = true ∧
    (on3 (regs 5 7 9)).issues 3 .plain [0] false = true ∧ (31 : Reg) ≠ 0 := by decide
/-- The result register after an instruction on registers 2 and 3. -/
def alu (i : Instr) (y z : Word) : Word := ((nx i (on3 (regs 0 y z))).cc 3).reg 1
theorem test_alu : alu (.add 3 1 2 3) 0xFFFFFFFF 2 = 1 ∧ alu (.sub 3 1 2 3) 1 2 = 0xFFFFFFFF ∧ alu (.and_ 3 1 2 3) 0xFF0 0x0FF = 0x0F0 ∧
    alu (.andn 3 1 2 3) 0xFF0 0x0FF = 0xF00 ∧ alu (.or_ 3 1 2 3) 0xF00 0x00F = 0xF0F ∧ alu (.xor 3 1 2 3) 0xFF0 0x0FF = 0xF0F := by decide
theorem test_alu_shifts : alu (.sll 3 1 2 3) 1 33 = 2 ∧ alu (.srl 3 1 2 3) 0x80000000 31 = 1 ∧ alu (.sra 3 1 2 3) 0x80000000 31 = 0xFFFFFFFF ∧
    alu (.slli 3 1 2 31) 3 0 = 0x80000000 ∧ alu (.srli 3 1 2 4) 0xF0 0 = 0xF ∧ alu (.srai 3 1 2 4) 0x80000000 0 = 0xF8000000 := by decide
theorem test_alu_compares : alu (.slt 3 1 2 3) 0xFFFFFFFF 0 = 1 ∧ alu (.sltu 3 1 2 3) 0xFFFFFFFF 0 = 0 ∧ alu (.min 3 1 2 3) 0x80000000 1 = 0x80000000 ∧
    alu (.max 3 1 2 3) 0x80000000 1 = 1 ∧ alu (.minu 3 1 2 3) 0x80000000 1 = 1 ∧ alu (.maxu 3 1 2 3) 0x80000000 1 = 0x80000000 := by decide
theorem test_alu_counts : alu (.clz 3 1 2) 0 0 = 32 ∧ alu (.clz 3 1 2) 0x00010000 0 = 15 ∧ alu (.popc 3 1 2) 0x80000001 0 = 2 := by decide
theorem test_immediates : alu (.addi 3 1 2 0xFFFF) 0 0 = 0xFFFFFFFF ∧ alu (.andi 3 1 2 0xFFFF) 0xFFFFFFFF 0 = 0xFFFF ∧
    alu (.ori 3 1 2 0x8000) 0 0 = 0x8000 ∧ alu (.xori 3 1 2 0xFFFF) 0xFFFFFFFF 0 = 0xFFFF0000 ∧ alu (.slti 3 1 2 0xFFFF) 0 0 = 0 ∧
    alu (.sltiu 3 1 2 0xFFFF) 0 0 = 1 ∧ alu (.lui 3 1 0x1234) 0 0 = 0x12340000 := by decide
theorem test_register_zero : ((nx (.addi 3 0 2 1) (on3 (regs 0 7 0))).cc 3).regs = (regs 0 7 0).regs ∧
    ((nx (.addi 3 0 2 1) (on3 (regs 0 7 0))).cc 3).pc = 0x400004 := by decide

theorem hyp_RegisterOnlyInstructionsFrame : regOnly (.jal 3 5) = some (3, .branch, [31], some 31) ∧
    regOnly (.beq 3 1 2 5) = some (3, .branch, [1, 2], none) ∧ (on3 (regs 1 2 3)).issues 3 .branch [31] false = true ∧
    (on3 (regs 1 2 3)).issues 3 .branch [1, 2] false = true := by decide

/-- A branch in flight that was predicted right, with two instructions in its shadow. -/
def shadow1 : Op := { kind := .branch true, snap := { ctx := run0, jvec := 0, jsvec := 0 }, started := true, after := 2 }
/-- A TRN in flight that has completed. -/
def trn1 : Op := { kind := .unit .transpose, snap := { ctx := run0, jvec := 0, jsvec := 0 }, dest := .board 1, started := true, done := true, oob := 3, after := 1 }
theorem hyp_IssueCountsOnly : (on3 run0).issues 3 .plain [] false = true ∧
    (((on3 run0).bench 3).flight = [] ∧ ((on3 run0).bench 3).ecc = [] ∧ ((on3 run0).bench 3).switched = false) ∧
    (at3 { b3 with flight := [trn1, shadow1] }).issues 3 .plain [] true = true := by decide

/-- A task at the last address of two loops. -/
def looping (n0 n1 : Word) : Ctx := { run0 with jstat := 0x805, lstart := [(0, 0x400100), (1, 0x400200)], lend := [(0, 0x400000), (1, 0x400000)], lcnt := [(0, n0), (1, n1)] }
theorem hyp_RetireFollowsTheLoopEndTest : (looping 2 5).le = true ∧ (looping 2 5).delay = none ∧
    ((on3 { run0 with delay := some ⟨0x3FFFFC, 0x400080, none, true⟩, modeShadow := some 0 }).cc 3).delay = some ⟨0x3FFFFC, 0x400080, none, true⟩ ∧
    ((on3 { run0 with modeShadow := some 0 }).cc 3).modeShadow = some 0 := by decide
theorem test_loop_end : (((on3 (looping 2 5)).retires 3 id).cc 3).pc = 0x400100 ∧ (((on3 (looping 2 5)).retires 3 id).cc 3).lcnt = [(0, 1), (1, 5)] ∧
    (((on3 (looping 1 5)).retires 3 id).cc 3).pc = 0x400200 ∧ (((on3 (looping 1 5)).retires 3 id).cc 3).lcnt = [(1, 4)] ∧
    (((on3 (looping 1 1)).retires 3 id).cc 3).pc = 0x400004 ∧ (((on3 (looping 1 1)).retires 3 id).cc 3).lcnt = [] := by decide

theorem hyp_BranchesTakeTheRightPath : (on3 (regs 1 2 0)).issues 3 .branch [1, 2] false = true ∧
    (on3 { regs 1 2 0 with jmode := 2 }).issues 3 .branch [1, 2] false = true := by decide
theorem test_branch : ((nx (.blt 3 1 2 0xFFFF) (on3 (regs 0xFFFFFFFF 0 0))).cc 3).delay = some ⟨0x400000, 0x400008, some 0x3FFFFC, false⟩ ∧
    ((nx (.bltu 3 1 2 4) (on3 (regs 0xFFFFFFFF 0 0))).cc 3).delay = some ⟨0x400000, 0x400008, some 0x400010, true⟩ := by decide

theorem hyp_JumpsAndLinks : (on3 (regs 0x400010 0 0)).issues 3 .branch [1, 31] false = true ∧ (on3 (regs 0x400012 0 0)).issues 3 .branch [1] false = true ∧
    (on3 run0).issues 3 .branch [31] false = true ∧ (on3 run0).issues 3 .branch [] false = true := by decide
theorem test_jalr : ((nx (.jalr 3 1) (on3 (regs 0x400010 0 0))).cc 3).reg 31 = 0x400008 ∧
    ((nx (.jr 3 1) (on3 (regs 0x400012 0 0))).cc 3).jcause = 3 ∧ ((nx (.jr 3 1) (on3 (regs 0x400012 0 0))).cc 3).jbadaddr = 0x400012 := by decide

theorem hyp_LoopsSetUpTheirLevel : (on3 (regs 0 2 0)).issues 3 .control [1] false = true ∧ (on3 (regs 0 2 0)).issues 3 .control [] false = true := by
  decide
theorem test_loopi : ((nx (.loopi 3 2 0 4) (on3 run0)).cc 3).pc = 0x400014 ∧ ((nx (.loopi 3 2 3 4) (on3 run0)).cc 3).lend = [(2, 0x400010)] ∧
    ((nx (.loopi 3 3 3 4) (on3 run0)).cc 3).jcause = 1 ∧ ((nx (.loop 3 0 1 0) (on3 (regs 2 0 0))).cc 3).jcause = 1 := by decide

theorem hyp_ControlRegisterReads : (on3 run0).issues 3 .plain [1] true = true ∧ (on3 run0).issues 3 .plain [1] false = true ∧
    (on3 { run0 with jstat := 0x804 }).issues 3 .plain [1] true = true ∧ run0.mode = mSuper ∧ ({ run0 with jstat := 0x804 } : Ctx).mode = mUser := by
  decide
theorem test_mfj : alu (.mfj 3 1 0) 0 0 = 0x805 ∧ alu (.mfj 3 1 5) 0 0 = 0x400000 ∧
    ((nx (.mfj 3 1 6) (on3 run0)).cc 3).jcause = 2 ∧ ((nx (.mfj 3 1 11) (on3 run0)).cc 3).jcause = 1 ∧ ((nx (.mfj 3 1 19) (on3 run0)).cc 3).jcause = 1 := by
  decide

theorem hyp_ControlRegisterWrites : (on3 (regs 7 0 0)).issues 3 .plain [1] true = true ∧ (on3 (regs 7 0 0)).issues 3 .plain [1] false = true ∧
    (on3 secure0).issues 3 .plain [1] false = true ∧ secure0.mode = mSecure := by decide
theorem test_mtj : ((nx (.mtj 3 0 1) (on3 (regs 0xFFFFFFFF 0 0))).cc 3).jstat = 0x19F5 ∧
    ((nx (.mtj 3 4 1) (on3 { regs 0xFFFFFFFF 0 0 with jmode := 4 })).cc 3).jmode = 7 ∧
    ((nx (.mtj 3 5 1) (on3 (regs 0x1234567F 0 0))).bench 3).jvec = 0x12345600 := by decide

theorem hyp_TrapEntersTheSystemCall : (on3 run0).issues 3 .control [] true = true ∧ (on3 secure0).issues 3 .control [] true = true := by decide
theorem test_trap : ((nx (.trap 3 0x5A) (on3 run0)).cc 3).jcause = 0x5A20 ∧ ((nx (.trap 3 0x5A) (on3 run0)).cc 3).pc = 0x400080 := by decide

theorem hyp_ExceptionEntrySavesAndEnters : ((on3 run0).cc 3).exl = false ∧ ((on3 run0).bench 3).loading = none ∧ ((on3 run0).commitAll 3).2 = true ∧
    ((on3 run0).bench 3).flight = [] ∧ ((on3 run0).bench 3).cur.isSome = true ∧
    (1 : Nat) ≤ 9 ∧ (9 : Nat) ≠ exSUM ∧ ((on3 { run0 with modeShadow := some 0 }).cc 3).exl = false ∧
    ((on3 { run0 with delay := some ⟨0x3FFFFC, 0x400080, none, true⟩ }).cc 3).exl = false := by decide

/-- Bench 3 with interrupt sources 2 and 6 pending, 6 and 7 enabled. -/
def irq3 : State := at3 { b3 with jipend := 0x44, ctxs := [(0, { run0 with jstat := 0x815, jien := 0xC0 })] }
theorem hyp_InterruptsAreTakenBetweenInstructions : irq3.canTake 3 = true ∧ (irq3.bench 3).loading = none ∧ (irq3.commitAll 3).2 = true ∧ (irq3.bench 3).flight = [] ∧
    ((irq3.cc 3).ie = true ∧ (irq3.cc 3).exl = false ∧ (irq3.cc 3).delay = none ∧ (irq3.cc 3).modeShadow = none) ∧
    ((6 : Nat) < 8 ∧ (irq3.bench 3).jipend.getLsbD 6 = true ∧ (irq3.cc 3).jien.getLsbD 6 = true) ∧
    (∀ k, k < 6 → ¬ (k < 8 ∧ (irq3.bench 3).jipend.getLsbD k = true ∧ (irq3.cc 3).jien.getLsbD k = true)) ∧
    (on3 run0).canTake 3 = true ∧ ((on3 run0).cc 3).ie ≠ true := by decide
theorem test_interrupt : ((nx (.interruptEntry 3) irq3).cc 3).pc = 0x400040 ∧ ((nx (.interruptEntry 3) irq3).cc 3).jcause = 0x610 := by decide

/-- A handler of user code, with a SETMODE shadow saved. -/
def handler : Ctx := { run0 with jstat := 0xD61, jepc := 0x400100 }
theorem hyp_ReturnFromHandler : (on3 handler).issues 3 .control [] true = true ∧ (on3 run0).issues 3 .control [] true = true ∧ handler.exl = true ∧
    handler.mode = mSuper ∧ run0.exl = false ∧ (on3 { handler with jstat := 0x40 }).issues 3 .control [] true = true := by decide
theorem test_eret : ((nx (.eret 3) (on3 handler)).cc 3).pc = 0x400100 ∧ ((nx (.eret 3) (on3 handler)).cc 3).modeShadow = some 2 ∧
    ((nx (.eret 3) (on3 handler)).cc 3).ie = true := by decide

/-- Bench 3 with a second task that is READY. -/
def two3 (c : Ctx) : State := at3 { b3 with ctxs := [(0, c), (2, { status := .ready, pc := 0x400800 })], patch := [(0x10, 0xAABBCCDD)] }
/-- The same in a real-time partition. -/
def rt3 (s : State) : State := { s with tens := [(0, { s.ten 0 with rt := true, rtActive := true })] }
theorem hyp_ModeChangesAndWaits : (two3 run0).issues 3 .control [] false = true ∧ (two3 run0).issues 3 .control [] true = true ∧
    (two3 run0).isRt 3 = false ∧ (rt3 (two3 run0)).isRt 3 = true ∧ (rt3 (two3 run0)).issues 3 .control [] true = true ∧
    ((two3 run0).bench 3).nextReady 0 = some 2 ∧ ((on3 run0).bench 3).nextReady 0 = none ∧
    (on3 { run0 with jstat := 0x8805 }).issues 3 .control [] true = true ∧ ({ run0 with jstat := 0x8805 } : Ctx).glu = true := by decide
theorem test_waits : ((nx (.yield 3) (two3 run0)).bench 3).cur = some 2 ∧ (((nx (.wstroke 3) (rt3 (two3 run0))).bench 3).ctx 0).status = .waiting ∧
    ((nx (.isync 3) (two3 run0)).bench 3).idrawer.get 0x12 = 0xBB ∧ (((nx (.tend 3) (two3 run0)).bench 3).ctx 0).status = .empty ∧
    ((nx (.setmode 3 2) (two3 run0)).cc 3).jcause = 2 ∧ ((nx (.setmode 3 0) (two3 run0)).cc 3).modeShadow = some 0 := by decide

/-! ### Loads, stores and windows -/

/-- Bench 3 with bytes at 0x100 of its drawer, and its task's registers. -/
def mem3 (c : Ctx) : State := at3 { b3 with ctxs := [(0, c)], drawer := [(0x100, 0x81), (0x101, 0x92), (0x102, 0xA3), (0x103, 0xB4)] }
theorem hyp_DrawerLoads : (mem3 (regs 0x100 0 0)).issues 3 .plain [4, 1] false = true ∧
    ((((mem3 (regs 0x100 0 0)).cc 3).reg 1) + (1 : BitVec 16).signExtend 32).toNat < 0x1E0000 ∧
    eccBad (((mem3 (regs 0x100 0 0)).bench 3).eccIn siteDrawer 0x100 4) = false ∧ ((mem3 (regs 0x100 0 0)).bench 3).unseen = [] ∧
    (∃ x ∈ ((at3 { b3 with unseen := [{ off := 0x100, n := 64, bench := 3, stream := 1, tag := 2 }] }).bench 3).unseen, x.off < 0x104 ∧ 0x100 < x.off + x.n) ∧
    (mem3 (regs 0x100 0 0)).glb.wipe = none ∧ { regs 0x101 0 0 with jmode := 1 }.urot = true ∧
    (mem3 { regs 0x1FFFFC 0 0 with jstat := 0x806 }).issues 3 .plain [4, 1] false = true ∧
    { regs 0x1FFFFC 0 0 with jstat := 0x806 }.mode = mSecure := by decide
/-- Register 4 after a load with register 1 as the base. -/
def load (i : Instr) (base : Word) (jmode : Word) : Word := ((nx i (mem3 { regs base 0 0 with jmode := jmode })).cc 3).reg 4
theorem test_loads : load (.lw 3 4 1 0) 0x100 0 = 0xB4A39281 ∧ load (.lb 3 4 1 1) 0x100 0 = 0xFFFFFF92 ∧ load (.lbu 3 4 1 1) 0x100 0 = 0x92 ∧
    load (.lh 3 4 1 2) 0x100 0 = 0xFFFFB4A3 ∧ load (.lhu 3 4 1 2) 0x100 0 = 0xB4A3 ∧ load (.lhu 3 4 1 0) 0x101 1 = 0xA392 ∧
    load (.lw 3 4 1 0xFFFF) 0x102 1 = 0x81B4A392 := by decide

theorem hyp_DrawerStores : (mem3 (regs 0x101 0x11223344 0)).issues 3 .plain [2, 1] true = true ∧
    ((((mem3 (regs 0x101 0 0)).cc 3).reg 1) + (0 : BitVec 16).signExtend 32).toNat < 0x1E0000 ∧
    (((mem3 (regs 0x101 0 0)).atIssue 3 true).bench 3).eccIn siteDrawer 0x100 4 = [] := by decide
theorem test_stores : ((nx (.sb 3 2 1 0) (mem3 (regs 0x101 0x11223344 0))).bench 3).drawer = [(0x100, 0x81), (0x101, 0x44), (0x102, 0xA3), (0x103, 0xB4)] ∧
    ((nx (.sh 3 2 1 0) (mem3 (regs 0x102 0x11220044 0))).bench 3).drawer = [(0x100, 0x81), (0x101, 0x92), (0x102, 0x44)] ∧
    ((nx (.sw 3 2 1 4) (mem3 (regs 0x1FFFFC 1 0))).cc 3).jcause = 4 ∧ ((nx (.sw 3 0 1 0) (mem3 (regs 0x100 1 0))).bench 3).drawer = [] := by decide

/-- A word task that uses base `a`, in a mode. -/
def at_ (a : Word) (mode : Word) : State := on3 { regs a 0x55 0 with jstat := 0x804 + mode }
theorem hyp_ScalarAccessFaults : (at_ 0x1E0000 1).issues 3 .plain [4, 1] false = true ∧ (at_ 0x820000 0).issues 3 .plain [4, 1] true = true ∧
    (at_ 0x400000 1).issues 3 .plain [2, 1] true = true ∧ (at_ 0x600000 1).issues 3 .plain [4, 1] true = true ∧
    (at_ 0x10A00000 1).usable 5 = true ∧ ((at_ 0x10A00000 1).ten 0).mask.getLsbD 5 = false := by decide
theorem test_access_faults : ((nx (.lw 3 4 1 0) (at_ 0x1E0000 1)).cc 3).jcause = 2 ∧ ((nx (.lw 3 4 1 0) (at_ 0x820000 0)).cc 3).jcause = 2 ∧
    ((nx (.lw 3 4 1 0) (at_ 0x102 1)).cc 3).jcause = 3 ∧ ((nx (.sh 3 2 1 0) (at_ 0x400000 1)).cc 3).jcause = 3 ∧
    ((nx (.lb 3 4 1 0) (at_ 0x800000 1)).cc 3).jcause = 3 ∧ ((nx (.lw 3 4 1 0) (at_ 0x600000 1)).cc 3).jcause = 4 ∧
    ((nx (.lw 3 4 1 0) (at_ 0x10A00000 1)).cc 3).jcause = 4 := by decide
/-- A window load in flight holds its register, and what waits for retire waits for it. -/
theorem test_load_in_flight : (nx (.lw 3 4 1 0) (at_ 0x10800010 0)).issues 3 .plain [4] false = false ∧
    (nx (.lw 3 4 1 0) (at_ 0x10800010 0)).issues 3 .plain [2] false = true ∧ (nx (.lw 3 4 1 0) (at_ 0x10800010 0)).issues 3 .plain [2] true = false := by decide
theorem test_patch_overflow : ((nx (.sw 3 2 1 0) (at3 { b3 with ctxs := [(0, regs 0x400000 1 0)], patch := List.replicate 8 (4, 0) })).cc 3).jcause = 6 := by
  decide

theorem hyp_WindowAccesses : (at_ 0x40FFFC 1).issues 3 .plain [2, 1] true = true ∧ ((at_ 0x40FFFC 1).bench 3).ecc = [] ∧
    ((at_ 0x400000 1).cc 3).mode ≠ mUser ∧ ((at_ 0x400000 1).bench 3).patch.length < 8 ∧ (at_ 0x80FFFC 0).issues 3 .plain [2, 1] true = true ∧
    (at_ 0x81FFFC 0).issues 3 .plain [2, 1] true = true ∧ (at_ 0x82007C 1).issues 3 .plain [2, 1] true = true ∧
    (at_ 0x10800000 1).issues 3 .plain [2, 1] true = true ∧ (at_ 0x10800000 1).usable 4 = true ∧
    (((at_ 0x10800000 1).atIssue 3 true).ten 0).mask.getLsbD 4 = true := by decide
theorem test_windows : ((nx (.sw 3 2 1 0) (at_ 0x40FFFC 1)).bench 3).patch = [(0xFFFC, 0x55)] ∧
    (nx (.lw 3 4 1 0) (at_ 0x10800010 0)).noc.req.map (fun x => (x.src, x.dst, x.part, x.secure, x.flits, x.body)) =
      [(.bench 3, [.bench 4], 0, false, 1, .load 0x10 4 false 0)] ∧
    ((nx (.lw 3 4 1 0) (at_ 0x10800010 0)).bench 3).flight.map (·.kind) = [.load 4 0] ∧
    (nx (.sw 3 2 1 0) (at_ 0x810018 0)).noc.req.map (fun x => (x.dst, x.body)) = [([.foreman], .dowel 0 1 0x55 0)] := by decide
theorem test_mailbox_window : ((nx (.lw 3 4 1 0) (at3 { b3 with ctxs := [(0, regs 0x800000 0 0)], mailbox := [{ dev := 9, bench := 4, w0 := 1, w1 := 2 }] })).cc 3).reg 4 ≠ 0 := by
  decide

/-! ### Boards, the glue-up and the Marquetry unit -/

/-- A board of context 0: 2 rows of 4 bytes, in bytes, holding 1 to 8. -/
def tile (ew : BitVec 2) : Board :=
  { data := { cells := [(0, 1), (1, 2), (2, 3), (3, 4), (64, 5), (65, 6), (66, 7), (67, 8)] }, rows := 2, rbytes := 4, ew := ew, owner := some 0 }
/-- The glue-up with lane 0 of row 5 holding 7, of the integer class. -/
def glue7 : Glue := { data := { cells := [(256 * 5, 7)] }, cls := some false }
/-- Bench 3 with board 1 as given, a live glue-up, and bytes in the drawer. -/
def tiles (d : Board) (c : Ctx) : State := at3 { b3 with
  ctxs := [(0, { c with jstat := c.jstat ||| 0x8000 })], boards := [(1, d)], glue := glue7
  drawer := [(0x100, 0x11), (0x101, 0x12), (0x102, 0x13), (0x103, 0x14), (0x110, 0x21), (0x111, 0x22), (0x112, 0x23), (0x113, 0x24)] }
/-- Base 0x100 and stride 0x10. -/
def strided : Ctx := regs 0x100 0x10 0

theorem hyp_ShapesReleasesAndZeroing : (tiles (tile 0) strided).issues 3 .plain [] true = true ∧
    ((((tiles (tile 0) strided).atIssue 3 true).bench 3).board 1).owner = some 0 ∧
    ((((tiles (tile 0) strided).atIssue 3 true).bench 3).board 2).owner = none ∧
    ((tiles { tile 0 with owner := some 1 } strided).issues 3 .plain [] true) = true ∧
    ((at3 { b3 with glue := { glue7 with secure := true } }).issues 3 .plain [] true) = true ∧ (5 : BitVec 3).toNat < 6 := by decide
theorem test_shapes : ((nx (.shape 3 2 0 4 0) (tiles (tile 0) strided)).bench 3).board 2 = { rows := 64, rbytes := 4, owner := some 0 } ∧
    ((nx (.shape 3 2 1 3 1) (tiles (tile 0) strided)).cc 3).jcause = 5 ∧
    ((nx (.shape 3 1 1 4 0) (tiles { tile 0 with owner := some 1 } strided)).cc 3).jcause = 2 ∧
    ((nx (.releaseBs 3 1) (tiles (tile 0) strided)).bench 3).board 1 = { tile 0 with data := { undef := some 0 }, owner := none } ∧
    ((nx (.releaseGu 3) (tiles (tile 0) strided)).cc 3).glu = false ∧ ((nx (.accz 3 6) (tiles (tile 0) strided)).cc 3).jcause = 1 := by decide

/-- What BLD and BST need of a place and a board. -/
def fits3 (s : State) (tr : Bool) : Bool :=
  let w := specWaits 3 tr (.board 1) s
  let v := (s.atIssue 3 w).bench 3
  s.issues 3 .plain [1, 2] w && s.issues 3 .plain [1, 2] true && !boardPriv v 1 && v.badTranspose.isEmpty && s.glb.wipe.isNone &&
    decide ((v.cc.reg 1).toNat % ewBytes (v.board 1).ew = 0 ∧ (v.cc.reg 2).toNat % ewBytes (v.board 1).ew = 0) &&
    (List.range (if tr then (v.board 1).perRow else (v.board 1).rows)).all fun k =>
      decide ((v.cc.reg 1 + BitVec.ofNat 32 k * v.cc.reg 2).toNat + (v.board 1).rbytes ≤ 0x1E0000) && (v.eccIn siteDrawer 0 0x2000).isEmpty
theorem hyp_BoardLoads : fits3 (tiles (tile 0) strided) false = true ∧ fits3 (tiles (tile 0) strided) true = true ∧
    (tile 0).ew ≠ 3 ∧ (tile 0).rows * ewBytes (tile 0).ew ≤ 64 := by decide
theorem test_bld : (((nx (.bld 3 1 false 1 2) (tiles (tile 0) strided)).bench 3).board 1).data.cells =
      [(0, 0x11), (1, 0x12), (2, 0x13), (3, 0x14), (64, 0x21), (65, 0x22), (66, 0x23), (67, 0x24)] ∧
    (((nx (.bld 3 1 true 1 2) (tiles (tile 0) strided)).bench 3).board 1).data.cells =
      [(0, 0x11), (1, 0x21), (64, 0x12), (65, 0x22)] := by decide

theorem hyp_BoardStores : (tile 0).owner ≠ none ∧ fits3 (tiles (tile 0) (regs 0x200 0x10 0)) true = true ∧
    eccBad (boardEcc (((tiles (tile 0) strided).atIssue 3 true).bench 3) 1) = false := by decide
theorem test_bst : (((nx (.bst 3 1 false 1 2) (tiles (tile 0) (regs 0x200 0x10 0))).bench 3).drawer.filter fun e => decide (0x200 ≤ e.1)) =
      [(0x200, 1), (0x201, 2), (0x202, 3), (0x203, 4), (0x210, 5), (0x211, 6), (0x212, 7), (0x213, 8)] ∧
    (((nx (.bst 3 1 true 1 2) (tiles (tile 0) (regs 0x200 0x10 0))).bench 3).drawer.filter fun e => decide (0x200 ≤ e.1)) =
      [(0x200, 1), (0x201, 5), (0x210, 2), (0x211, 6), (0x220, 3), (0x221, 7), (0x230, 4), (0x231, 8)] := by decide

/-- An index board: row 0 to row 5, row 1 to an index above 63. -/
def index : Board := { data := { cells := [(0, 5), (1, 99)] }, rows := 1, rbytes := 2, owner := some 0 }
/-- Boards 1 (bytes) and 2 (indices), with the glue-up of glue7. -/
def adds : State := (tiles (tile 0) strided).modBench 3 fun v => { v with boards := [(1, tile 0), (2, index)] }
theorem hyp_GlueUpSums : adds.issues 3 .plain [] true = true ∧ glueTy 0 = some .int8 ∧ ((adds.atIssue 3 true).bench 3).cc.glu = true ∧
    gluePriv ((adds.atIssue 3 true).bench 3) = false ∧ glue7.cls = some AccTy.int8.isFloat ∧ boardPriv (adds.bench 3) 1 = false ∧
    ewBytes (tile 0).ew = AccTy.int8.bytes ∧ eccBad (boardEcc (adds.bench 3) 1) = false ∧ (5 : BitVec 6).toNat + (tile 0).rows ≤ 64 ∧
    eccBad (glueEcc (adds.bench 3) [5, 6]) = false ∧ boardPriv (adds.bench 3) 2 = false ∧ (tile 0).rows ≤ index.count ∧
    eccBad (glueEcc (adds.bench 3) [5, 63]) = false ∧ eccBad (boardEccTo (adds.bench 3) 2 2) = false := by decide
theorem hyp_GlueUpSums_shapes : (tile 0).legal ∧ index.legal := by simp only [Board.legal]; decide
theorem test_acc : (((nx (.acc 3 1 0 5) adds).bench 3).glue.lane 5 0, ((nx (.acc 3 1 0 5) adds).bench 3).glue.lane 6 3) = (8, 8) ∧
    (((nx (.acci 3 1 2 0) adds).bench 3).glue.lane 5 1, ((nx (.acci 3 1 2 0) adds).bench 3).glue.lane 63 2) = (2, 7) ∧
    ((nx (.acci 3 1 2 0) adds).bench 3).flight.map (fun o => (o.kind, o.dest, o.oob)) = [(.unit .portA, .glue [5, 63], 1)] := by decide +kernel

theorem hyp_GlueUpDrains : (tiles (tile 0) (regs 0x800 0x100 0)).issues 3 .plain [1, 2] true = true ∧
    gluePriv (((tiles (tile 0) (regs 0x800 0x100 0)).atIssue 3 true).bench 3) = false ∧ (5 : BitVec 6).toNat + 2 ≤ 64 ∧
    eccBad (glueEcc (((tiles (tile 0) (regs 0x800 0x100 0)).atIssue 3 true).bench 3) [5, 6]) = false ∧
    (∀ k, k < 64 → ((0x800 : Word) + BitVec.ofNat 32 k * 0x100).toNat + 256 ≤ 0x1E0000) := by decide
theorem test_drain : ((nx (.drain 3 0 false 1 2 5 2) (tiles (tile 0) (regs 0x800 0x100 0))).bench 3).drawer.get 0x800 = 7 ∧
    ((nx (.drain 3 3 true 1 2 5 2) (tiles (tile 0) (regs 0x800 0x100 0))).bench 3).drawer.get 0x800 = 7 ∧
    ((nx (.drain 3 1 false 1 2 5 2) (tiles (tile 0) (regs 0x800 0x100 0))).cc 3).jcause ≠ 0 := by decide +kernel

/-- A board of 256 bytes. -/
def wide : Board := { data := { cells := [(5, 7), (133, 9)] }, rows := 4, rbytes := 64, owner := some 0 }
/-- Board 1 of 256 bytes, board 2 of its shape, board 3 of the shape of its transpose. -/
def kerf : State := at3 { b3 with
  ctxs := [(0, regs 0x200 0 0)]
  boards := [(1, wide), (2, { rows := 4, rbytes := 64, owner := some 0 }), (3, { rows := 64, rbytes := 4, owner := some 0 }),
    (4, { rows := 8, rbytes := 1, owner := some 0, data := { cells := [(0, 0x80), (64, 0x01)] } }), (5, { rows := 8, rbytes := 1 })] }
/-- The bench in which the body of an instruction on it runs. -/
def kerfV : Bench := (kerf.atIssue 3 (specWaits 3 true (.board 2) kerf)).bench 3
theorem hyp_BoardPermutations : kerf.issues 3 .plain [] (specWaits 3 true (.board 2) kerf) = true ∧ kerfV.flight = [] ∧
    boardPriv kerfV 1 = false ∧ boardPriv kerfV 2 = false ∧ boardPriv kerfV 3 = false ∧ boardPriv kerfV 5 = false ∧
    eccBad (boardEcc kerfV 1) = false ∧ eccBad (boardEcc kerfV 4) = false ∧ wide.count % 256 = 0 ∧ slotPriv kerfV 15 = false ∧
    eccBad (permSettings kerfV 15).2 = false ∧ kerfV.badFabric = [] ∧ kerfV.badTranspose = [] ∧ wide.perRow = 64 := by decide +kernel
theorem hyp_BoardPermutations_shapes : wide.legal ∧ ({ rows := 64, rbytes := 4 } : Board).legal ∧ ({ rows := 8, rbytes := 1 } : Board).legal := by
  simp only [Board.legal]; decide
theorem test_trn : (((nx (.trn 3 3 1) kerf).bench 3).board 3).data.get (64 * 5 + 2) = wide.data.get (64 * 2 + 5) ∧
    (((nx (.btrn 3 5 4) kerf).bench 3).board 5).data.cells = [(0, 2), (448, 1)] := by decide +kernel

theorem hyp_PatternSolves : 256 ≤ wide.count ∧ wide.owner ≠ none ∧ kerfV.badSolver = [] ∧ wide.ew = 0 ∧ eccBad (boardEccTo kerfV 1 256) = false ∧
    boardPriv kerfV 1 = false ∧ specWaits 3 true (.slot 5) kerf = false ∧ kerf.issues 3 .plain [] false = true := by decide +kernel
theorem hyp_SlotImages : kerf.issues 3 .plain [1] true = true ∧ kerf.issues 3 .plain [1] false = true ∧ (kerfV.cc.reg 1).toNat % 64 = 0 ∧
    (kerfV.cc.reg 1).toNat + 256 ≤ 0x1E0000 ∧ slotPriv kerfV 0 = false ∧ eccBad (slotEcc kerfV 0) = false ∧
    eccBad (kerfV.eccIn siteDrawer 0x200 256) = false := by decide +kernel
theorem test_psv_prs : ((nx (.psv 3 1 0) (kerf.modBench 3 fun v => { v with slots := [(0, { img := { cells := [(239, 9)] } })] })).bench 3).drawer = [(0x2EF, 9)] ∧
    (((nx (.prs 3 4 1) (kerf.modBench 3 fun v => { v with drawer := [(0x200, 5), (0x2F0, 6)] })).bench 3).slot 4).img.cells = [(0, 5)] := by
  decide +kernel

theorem hyp_UnownedAndForeignBoards : (kerf.bench 3).board 5 = { rows := 8, rbytes := 1 } ∧
    (tiles { tile 0 with owner := some 2 } strided).issues 3 .plain [1, 2] true = true ∧
    (tiles { tile 0 with owner := some 2 } strided).issues 3 .plain [1, 2] false = true := by decide +kernel
theorem test_unowned : ((nx (.trn 3 3 5) kerf).cc 3).jcause = 1 ∧ ((nx (.bst 3 1 false 1 2) (tiles { tile 0 with owner := some 2 } strided)).cc 3).jcause = 2 := by
  decide +kernel

/-! ### Streams, racks, messages and dowels -/

theorem hyp_StreamStartsAndTags : (on3 (regs 0x1FFFC0 0 0)).issues 3 .plain [4, 1] true = true ∧ (0x1FFFC0 : Nat) % 64 = 0 ∧
    ((on3 (regs 0x1FFFC0 0 0)).bench 3).tags.free = 0 :: (List.range 64).drop 1 ∧
    ((on3 (regs 7 0 0)).bench 3).tags.isFree 7 = true ∧ ((at3 { b3 with tags := { free := [] } }).bench 3).tags.isFree 0 = false ∧
    (on3 (regs 0x200000 0 0)).issues 3 .plain [4, 1] true = true ∧ (on3 (regs 0x41 0 0)).issues 3 .plain [4, 1] false = true := by decide
theorem test_sgo : ((nx (.sgo 3 4 1) (at3 { b3 with ctxs := [(0, regs 0x1000 0 0)], drawer := [(0x1010, 0x20), (0x102C, 0x08)] })).bench 3).streams.map
      (fun x => (x.nextDesc, x.holds)) = [(0x1000, [(true, 3, 2)])] ∧
    ((nx (.sgo 3 4 1) (on3 (regs 0x200000 0 0))).cc 3).jcause = 4 ∧ ((nx (.sgo 3 4 1) (on3 (regs 0x1020 0 0))).cc 3).jcause = 3 ∧
    ((nx (.sgo 3 4 1) (at3 { b3 with ctxs := [(0, regs 0x1000 0 0)], tags := { free := [] } })).cc 3).pc = 0x400000 := by decide
theorem test_ttest : ((nx (.ttest 3 4 1) (at3 { b3 with ctxs := [(0, regs 0 0 0)], tags := { free := [] } })).cc 3).reg 4 = 0xFF := by decide

/-- A rack of 2 slots of 64 bytes at 0x8000 that the bench produces and consumes. -/
def rack0 : Rack := { base := 0x8000, enable := true, sizelog := 1, slotlog := 6 }
/-- Bench 3 with rack 1 as given. -/
def racks (r : Rack) : State := at3 { b3 with racks := [(1, r)] }
theorem hyp_RackInstructions : (racks rack0).issues 3 .plain [4] true = true ∧ (racks rack0).issues 3 .plain [] true = true ∧
    (rack0.res - rack0.rel).toNat < 2 ∧ (2 : Nat) ≤ ({ rack0 with res := 1, rel := 0xFFFFFFFF } : Rack).res.toNat + 1 ∧
    ({ rack0 with pub := 1 } : Rack).pub ≠ rack0.acq ∧ rack0.pub = rack0.acq ∧ rack0.cmt = rack0.res ∧ ({ rack0 with res := 1 } : Rack).cmt ≠ 1 ∧
    ({ rack0 with acq := 1 } : Rack).rel ≠ 1 ∧ (racks { rack0 with res := 1 }).isRt 3 = false ∧ (rt3 (racks rack0)).isRt 3 = true ∧
    (rt3 (racks rack0)).issues 3 .plain [] true = true := by decide
theorem test_racks : ((nx (.rres 3 4 1) (racks { rack0 with res := 1, rel := 0 })).cc 3).reg 4 = 0x8040 ∧
    (((nx (.rcmt 3 1) (racks { rack0 with res := 1 })).bench 3).rack 1).pub = 1 ∧
    ((nx (.rcmt 3 1) (racks { rack0 with res := 1 })).bench 3).jipend = 8 ∧
    ((nx (.racq 3 4 1) (racks { rack0 with pub := 1, poison := [(0, true)] })).cc 3).reg 4 = 0x8001 ∧
    ((nx (.rrel 3 1) (racks { rack0 with acq := 1 })).bench 3).rack 1 = { rack0 with acq := 1, rel := 1 } := by decide
theorem test_rack_stops : ((nx (.rres 3 4 2) (racks rack0)).cc 3).jcause = 1 ∧ ((nx (.rrel 3 1) (racks rack0)).cc 3).jcause = 1 ∧
    ((nx (.rres 3 4 1) (racks { rack0 with res := 2 })).cc 3).status = .stalled ∧ ((nx (.racq 3 4 1) (racks rack0)).cc 3).await = .published 1 := by decide

/-- Bench 3 with a message block at 0x100: word 0 names bench 4 of device 5, then the three words given. -/
def msgs (w0 w1 w2 w3 : Nat) : State := at3 { b3 with
  ctxs := [(0, regs 0x100 0 0)], drawer := Mem.setBytes [] 0x100 (leBytes 4 w0 ++ leBytes 4 w1 ++ leBytes 4 w2 ++ leBytes 4 w3) }
theorem hyp_MessageInstructions : (msgs 0x4005 0 0 4).issues 3 .plain [4, 1] true = true ∧ (0x100 : Nat) % 16 = 0 ∧
    eccBad (((msgs 0x4005 0 0 4).bench 3).eccIn siteDrawer 0x100 16) = false ∧
    ((msgs 0x4005 0 0 4).ten 0).mask.getLsbD (0x4005 / 2 ^ 12 % 128) = true ∧ (msgs 0x4005 0 0 4).dev.id.toNat = 0x4005 % 2 ^ 12 ∧
    ((msgs 0x4005 0 0 4).bench 4).mailbox.length < 16 ∧ (0x1DFFFC + 4 : Nat) ≤ 0x1E0000 ∧ ¬ (0x1DFFFC + 8 ≤ 0x1E0000) ∧
    (0xD0E10000 / 2 ^ 16 : Nat) = 0xD0E1 ∧ ¬ (0x80000 < 2 ^ 19) := by decide
/-- The status of tag 0 after a message instruction, 99 while it is in use. -/
def tag0 (i : Instr) (s : State) : Nat := let v := (nx i s).bench 3; if v.tags.isFree 0 then v.tags.stat 0 else 99
theorem test_messages : tag0 (.msgPut 3 4 1) (msgs 0x4005 0 0 6) = 5 ∧ tag0 (.msgGet 3 4 1) (msgs 0x84005 0 0 4) = 5 ∧
    tag0 (.msgPut 3 4 1) (msgs 0x4005 0x1DFFFC 0 8) = 5 ∧ tag0 (.msgAccum 3 4 1) (msgs 0x4005 0 0 0x06000004) = 5 ∧
    tag0 (.msgPut 3 4 1) (msgs 0x4005 0x200004 0 0) = 0 ∧ tag0 (.msgAccum 3 4 1) (msgs 0x4009 0 0 0x02000004) = 99 ∧
    tag0 (.msgPost 3 4 1) (msgs 0x4005 0 0xD0E10000 0) = 5 ∧ tag0 (.msgPost 3 4 1) (msgs 0x4005 0 7 8) = 99 := by decide +kernel
/-- A POST goes over REQ, is carried out at its bench, and its end comes back over RSP. -/
theorem test_post : (nx (.msgPost 3 4 1) (msgs 0x4005 0 7 8)).noc.req.map (fun x => (x.src, x.dst)) = [(.bench 3, [.bench 4])] ∧
    ((nx (.nocRequest 0 none) (nx (.msgPost 3 4 1) (msgs 0x4005 0 7 8))).bench 4).mailbox = [{ dev := 5, bench := 3, w0 := 7, w1 := 8 }] ∧
    ((nx (.nocRequest 0 none) (nx (.msgPost 3 4 1) (msgs 0x4005 0 7 8))).bench 4).jipend = 1 ∧
    ((nx (.nocResponse 0) (nx (.nocRequest 0 none) (nx (.msgPost 3 4 1) (msgs 0x4005 0 7 8)))).bench 3).xfers.map (fun x => (x.stage, x.status)) =
      [(.complete, 0)] := by decide +kernel

/-- Bench 3 on dowel 2 (of this device: 5 x 32 + 2), with 9 in register 2. -/
def dowels : State := { on3 (regs 162 9 0) with dowels := [(2, { count := 3, target := 20, waits := 0 })] }
theorem hyp_DowelInstructions : dowels.issues 3 .plain [4, 1, 2] true = true ∧ dowels.issues 3 .plain [4, 1] true = true ∧
    (162 : Nat) < 2 ^ 17 ∧ 162 / 32 = dowels.dev.id.toNat ∧ (on3 (regs 290 9 0)).issues 3 .plain [4, 1, 2] true = true ∧
    ¬ (290 / 32 = dowels.dev.id.toNat) ∧ 2 ^ 17 ≤ (((on3 (regs 0x20000 9 0)).cc 3).reg 1).toNat ∧ (on3 (regs 0x20000 9 0)).issues 3 .plain [4, 1] true = true ∧
    ((on3 (regs 290 9 0)).bench 3).tags.free = 0 :: (List.range 64).drop 1 := by decide
/-- The dowel unit's answer to a DOW of bench 3. -/
def dow (i : Instr) : State := nx (.nocRequest 0 none) (nx i dowels)
theorem test_dowels : ((nx (.nocResponse 0) (dow (.dadd 3 4 1 2))).cc 3).reg 4 = 3 ∧ ((dow (.dadd 3 4 1 2)).dowel 2).count = 12 ∧
    ((dow (.dsett 3 4 1 2)).dowel 2).target = 9 ∧ ((dow (.dwait 3 4 1)).dowel 2).waits = 8 ∧
    ((nx (.nocResponse 0) (dow (.drd 3 4 1))).cc 3).reg 4 = 3 ∧ ((dow (.dclr 3 4 1)).dowel 2).count = 0 ∧
    tag0 (.drd 3 4 1) (on3 (regs 290 9 0)) = 5 ∧ tag0 (.dadd 3 4 1 2) (on3 (regs 290 9 0)) = 99 := by decide +kernel

theorem hyp_DowelsNotifyWhenReached : (127 : Nat) < 128 ∧ (∀ r ∈ (dowels.ten 0).remote, r.2.2 ≠ 2) ∧
    (0 : Int) ≤ (({ count := 20, target := 20 } : Dowel).count - ({ count := 20, target := 20 } : Dowel).target).toInt ∧
    ¬ (0 : Int) ≤ (({ count := 3, target := 20 } : Dowel).count - ({ count := 3, target := 20 } : Dowel).target).toInt := by decide
theorem test_dowel_reached : ((dowels.modDowel 2 fun d => { d with waits := 0x10 }).dowelAdd 0 2 17 |>.bench 4).jipend = 2 ∧
    ((dowels.modDowel 2 fun d => { d with waits := 0x10 }).dowelAdd 0 2 16 |>.bench 4).jipend = 0 := by decide

/-! ### The events of a bench -/

/-- A branch in flight that was predicted wrong, and a PERM on board 1 whose result is in buffer 0. -/
def wrong1 : Op := { shadow1 with kind := .branch false, snap := { ctx := { run0 with pc := 0x400100 }, jvec := 0x400000, jsvec := 0x400000 } }
def perm1 : Op := { kind := .unit .fabric, snap := { ctx := { run0 with pc := 0x400040 }, jvec := 0, jsvec := 0 }, dest := .board 1, started := true, after := 1 }
def buffered1 : Op := { perm1 with done := true, buf := some 0 }
/-- Bench 3 with these in flight. -/
def flying (l : List Op) : State := at3 { b3 with flight := l, boards := [(1, { rows := 1, rbytes := 2 })], spec := [(0, { data := { cells := [(1, 7)] } })] }
/-- The same where the DEADLINE of a drained bench is pending. -/
def drained1 : State := at3 { b3 with draining := true, flight := [perm1], ctxs := [(0, { run0 with deadline := true })] }
theorem hyp_BenchEvents : (on3 { run0 with deadline := true }).canRun 3 = true ∧ run0.exl = false ∧ (flying []).alive = true ∧
    ((flying [perm1, wrong1]).bench 3).flight = [perm1] ++ wrong1 :: [] ∧ (∀ x ∈ [perm1], ∀ r, x.kind ≠ .branch r) ∧ wrong1.kind = .branch false ∧
    ((flying [shadow1, buffered1]).bench 3).flight = [] ++ shadow1 :: [buffered1] ∧ shadow1.kind = .branch true ∧
    ((flying [shadow1, buffered1]).bench 3).ecc = [] ∧ (∀ x ∈ [perm1].head?, x.done = false) ∧ buffered1.done = true := by
  refine ⟨by decide, by decide, by decide, by decide, ?_, by decide, by decide, by decide, by decide, by decide, by decide⟩
  intro x hx r; simp only [List.mem_singleton] at hx; subst hx; simp [perm1]
theorem hyp_BenchEvents_ends : ((flying [perm1]).bench 3).flight = [] ++ perm1 :: [] ∧ perm1.done = false ∧ perm1.buf = none ∧
    ((flying [{ trn1 with done := false }, perm1]).bench 3).flight = [{ trn1 with done := false }] ++ perm1 :: [] ∧
    (∃ x ∈ [{ trn1 with done := false }].head?, x.done = false) ∧ drained1.alive = true ∧ (drained1.bench 3).draining = true ∧
    (drained1.bench 3).cur.isSome = true ∧ (drained1.bench 3).cc.deadline = true ∧ ((drained1.bench 3).cc.rewound perm1.snap.ctx).exl = false ∧
    (at3 { b3 with lockAt := some 0 }).now < 0 + 2 ^ 20 ∧ (at3 { b3 with lockAt := some 0 }).usable 3 = true ∧
    ((at3 { b3 with lockAt := some 0 }).bench 3).cur = some 0 := by decide
theorem test_bench_events : ((nx (.deadlinePending 3) (on3 { run0 with deadline := true })).cc 3).jcause = 8 ∧
    ((nx (.branchResolve 3) (flying [perm1, wrong1, buffered1])).cc 3).pc = 0x400100 ∧
    ((nx (.branchResolve 3) (flying [perm1, wrong1, buffered1])).bench 3).flight = [perm1] ∧
    (((nx (.branchResolve 3) (flying [shadow1, buffered1])).bench 3).board 1).data.cells = [(1, 7)] ∧
    ((nx (.marquetryComplete 3 .fabric) (flying [perm1])).bench 3).flight = [] ∧
    ((nx (.drainEnd 3) drained1).cc 3).jepc = 0x400040 ∧ (((nx (.drainEnd 3) drained1).bench 3).board 1).data.undef.isSome = true ∧
    (((nx (.lockstepMismatch 3 false) (on3 run0)).bench 3).ctx 0).jcause = 9 ∧
    (nx (.lockstepMismatch 3 false) (at3 { b3 with lockAt := some 0 })).usable 3 = false := by decide +kernel

/-! ### The NoC, scrubbing, wipes and the plane engine -/

/-- A packet of bench 3 for an endpoint. -/
def pkt (b : Body) (e : Endp) : Pkt := { uid := 0, src := .bench 3, dst := [e], part := 0, body := b }
/-- A packet of an endpoint for bench 3. -/
def back (b : Body) (e : Endp) : Pkt := { uid := 0, src := e, dst := [.bench 3], part := 0, body := b }
/-- The base device with these packets on the NoC, bench 3 waiting for register 4. -/
def noc1 (n : Noc) : State := { at3 b3 with
  noc := { n with next := 9 }
  benches := [(3, { b3 with flight := [{ kind := .load 4 0, snap := { ctx := run0, jvec := 0, jsvec := 0 }, started := true, after := 1 }] }),
    (4, { drawer := [(0x20, 0x44)] })] }
/-- A load, a store and a dowel request. -/
def load1 : Pkt := pkt (.load 0x20 4 false 0) (.bench 4)
def store1 (off : Nat) : Pkt := pkt (.store off 4 0x11223344) (.bench 4)
def dowel1 : Pkt := pkt (.dowel 3 2 0 0) .foreman
def word1 : Pkt := back (.word 0 7) (.bench 4)
theorem hyp_ScalarAccessesOnTheNoc : (noc1 { req := [load1] }).alive = true ∧ (noc1 { req := [load1] }).noc.req[0]? = some load1 ∧
    (noc1 { req := [load1] }).noc.canReach .req 0 = true ∧ (noc1 { req := [load1] }).reqHeld load1 = false ∧
    (noc1 { req := [load1, load1] }).noc.canReach .req 1 = false ∧ (noc1 { req := [load1] }).usable 4 = true ∧
    ((noc1 { req := [load1] }).ten 0).mask.getLsbD 4 = true ∧ (noc1 { req := [load1] }).noc.cut .req load1 = false ∧
    ((noc1 {}).bench 4).ecc = [] ∧ (noc1 { req := [dowel1] }).noc.canReach .req 0 = true ∧ (noc1 { rsp := [word1] }).noc.canReach .rsp 0 = true ∧
    ((noc1 {}).bench 3).flight.map (·.kind) = [.load 4 0] ∧ (noc1 {}).noc.req[0]? = none ∧ (noc1 {}).noc.dead = [] := by decide +kernel
theorem test_noc_request : ((nx (.nocRequest 0 none) (noc1 { req := [store1 0x20] })).bench 4).drawer = [(0x20, 0x44), (0x21, 0x33), (0x22, 0x22), (0x23, 0x11)] ∧
    (nx (.nocRequest 0 none) (noc1 { req := [load1] })).noc.rsp.map (fun p => (p.src, p.dst, p.body)) = [(.bench 4, [.bench 3], .word 0 0x44)] ∧
    (nx (.nocRequest 0 none) (noc1 { req := [store1 0x1E0000] })).benches = (noc1 {}).benches ∧
    (nx (.nocRequest 0 none) (noc1 { req := [dowel1] })).noc.rsp.map (·.body) = [.word 0 0] := by decide +kernel
theorem test_noc_response : (((nx (.nocResponse 0) (noc1 { rsp := [word1] })).cc 3).reg 4,
    ((nx (.nocResponse 0) (noc1 { rsp := [word1] })).bench 3).flight) = (7, []) := by decide +kernel
theorem test_noc_spare : (nx (.nocRequest 0 (some ⟨.req, 3, 0⟩)) (noc1 {})).noc.spares = [⟨.req, 3, 0⟩] := by decide +kernel
/-- A load of bench 3 to bench 4, one hop east, enters its first router in one cycle and is ejected three cycles later. -/
theorem test_noc_cycles : ((List.range 4).foldl (fun (n : Noc) _ => n.tick) { req := [load1] }).req.map (fun p => (p.left, p.due)) = [(0, 0)] ∧
    ({ req := [load1] } : Noc).tick.buf = [(bufKey .req (benchNode 3) 4 0, [(0, 0)])] := by decide +kernel
/-- Of two heads for one output, the packet with the higher AGE goes first. -/
theorem test_noc_age :
    let n (age : Nat) : Noc := { req := [{ load1 with uid := 1, age := age }, { load1 with uid := 2, src := .bench 2, age := 1 }]
                                 buf := [(bufKey .req (benchNode 3) 1 0, [(2, 0)])] }
    (n 0).canReach .req 0 = false ∧ (n 2).canReach .req 0 = true := by decide +kernel

/-- Bench 3's transfer under tag 2 that writes bytes to bench 4, or reads them there. -/
def far1 (w : Bool) (tries : Nat) : Xfer :=
  { tag := 2, order := 0, msg := some (if w then .put else .get), dev := 5
    reads := if w then [] else [{ place := .drawer 4 0x20, n := 4, sent := true, tries := tries }]
    writes := if w then [{ place := .drawer 4 0x20, n := 4, data := some [1, 2, 3, 4], sent := true, told := true, tries := tries }]
      else [{ place := .drawer 3 0x40, n := 4 }]
    stage := if w then .writing else .reading }
/-- What its packets act for. -/
def ask1 (w : Bool) : Ask := { who := .bench 3, tag := 2, write := w }
/-- The device with that transfer and these packets. -/
def dat1 (w : Bool) (tries : Nat) (n : Noc) : State := { noc1 n with
  benches := [(3, { b3 with xfers := [far1 w tries], tags := { free := [] } }), (4, { drawer := [(0x20, 0x44)] })] }
/-- Its packets: the request, the grant and its data; the data of a read. -/
def req1 (w : Bool) : Noc := { req := [pkt (if w then .write (ask1 w) else .read (ask1 w)) (.bench 4)] }
def grant1 : Noc := { rsp := [back (.grant (ask1 true)) (.bench 4)] }
def wdata1 : Noc := { dat := [pkt (.wdata (ask1 true)) (.bench 4)], landings := [(.bench 4, ask1 true, 0)] }
def rdata1 : Noc := { dat := [back (.data (ask1 false) [9, 8, 7, 6] false) (.bench 4)] }
theorem hyp_DataTransfersOnTheNoc : (dat1 true 0 (req1 true)).alive = true ∧ (dat1 true 0 (req1 true)).noc.canReach .req 0 = true ∧
    (dat1 false 0 (req1 false)).noc.canReach .req 0 = true ∧ ((dat1 true 0 {}).askRun (ask1 true)).map (·.1) = some 3 ∧
    ((dat1 false 0 {}).askRun (ask1 false)).map (fun r => r.2.2.place) = some (.drawer 4 0x20) ∧ (dat1 true 0 {}).usable 4 = true ∧
    ((dat1 true 0 {}).ten 0).mask.getLsbD 4 = true ∧ (dat1 true 0 {}).noc.landings = [] ∧ ((dat1 true 0 {}).bench 4).ecc = [] ∧
    (dat1 true 0 grant1).noc.canReach .rsp 0 = true ∧ (dat1 true 0 wdata1).noc.canReach .dat 0 = true ∧
    (.bench 4, ask1 true, 0) ∈ (dat1 true 0 wdata1).noc.landings ∧ (dat1 false 0 rdata1).noc.canReach .dat 0 = true ∧ (ask1 true).tries = 0 := by
  decide +kernel
theorem hyp_DataTransfersOnTheNoc_retries : ((dat1 true 0 {}).bench 3).xfer? 2 = some (far1 true 0) ∧ (far1 true 0).silent = some (true, 0) ∧
    ((far1 true 0).writes[0]?).map (·.told) = some true ∧ ((far1 true 0).writes[0]?).bind ((dat1 true 0 {}).serverOf 3) = some (.bench 4) ∧
    (dat1 true 0 {}).veneer.looks = [] ∧ (∀ m ∈ meshes, ∀ q ∈ (dat1 true 0 {}).noc.of m, q.body.ask ≠ some (ask1 true)) ∧
    (0x1FFFFF : BitVec 21).toNat + 0 < 0x200000 := by decide +kernel
theorem test_noc_data : (nx (.nocRequest 0 none) (dat1 true 0 (req1 true))).noc.rsp.map (·.body) = [.grant (ask1 true)] ∧
    (nx (.nocResponse 0) (dat1 true 0 grant1)).noc.dat.map (·.body) = [.wdata (ask1 true)] ∧
    ((nx (.nocData 0 true none) (dat1 true 0 wdata1)).bench 4).drawer = [(0x20, 1), (0x21, 2), (0x22, 3), (0x23, 4)] ∧
    (nx (.nocData 0 true none) (dat1 true 0 wdata1)).noc.rsp.map (·.body) = [.done (ask1 true) 0] ∧
    (nx (.nocRequest 0 none) (dat1 false 0 (req1 false))).noc.dat.map (·.body) = [.data (ask1 false) [0x44, 0, 0, 0] false] ∧
    (nx (.nocData 0 false none) (dat1 true 0 wdata1)).noc.dat.map (·.body) = [.wdata { ask1 true with tries := 1 }] ∧
    ((nx (.nocWatchdog 3 2) (dat1 true 3 {})).bench 3).xfers.map (fun x => (x.stage, x.status)) = [(.complete, 4)] ∧
    (nx (.ageIncrement .dat 0) (dat1 true 0 wdata1)).noc.dat.map (·.age) = [1] := by decide +kernel
theorem test_port_retry : ((nx (.portRetry 4 .remote true true 0x1FFFFF [9, 8]) (dat1 true 0 {})).bench 4).drawer.get 0x1FFFFF = 9 ∧
    ((nx (.portRetry 4 .remote true true 0x1FFFFF [9, 8]) (dat1 true 0 {})).bench 4).splitUsed = (0, 0, 1) := by decide +kernel

/-- Bench 3 with one wrong bit in word 0 of its drawer and an uncorrectable word 0 of its mailbox. -/
def flawed : State := at3 { b3 with ecc := [(0, .single), (6 * 2 ^ 24, .double)], scrubQ := [0] }
theorem hyp_Scrubbing : flawed.clocked = true ∧ (flawed.bench 3).stuck = [] ∧ flawed.usable 3 = true ∧ (flawed.bench 3).uncorAt = none ∧ 0 * 2 ^ 24 + 0 ∉ (flawed.bench 3).stuck ∧
    (flawed.bench 3).scrubQ = 0 :: [] ∧ 0 ∉ ([] : List Nat) := by decide +kernel
theorem test_scrubs : ((nx (.patrolScrub (.drawer 3)) flawed).bench 3).ecc = [(6 * 2 ^ 24, .double)] ∧
    ((nx (.patrolScrub (.mailbox 3)) flawed).bench 3).ecc = [(0, .single), (6 * 2 ^ 24, .poison)] ∧
    ((nx (.patrolScrub (.drawer 3)) (at3 { b3 with scrubAt := [(0, 524287)] })).bench 3).scrubAt = [] ∧
    ((nx (.scrubVerify 3) flawed).bench 3).scrubQ = [] ∧ (nx (.patrolScrub (.veneerTags 2)) flawed).veneer.scrubAt = [(18, 1)] ∧
    ((nx (.forcedScrub 3 .remote 0) flawed).bench 3).ecc = [(6 * 2 ^ 24, .double)] := by decide +kernel

/-- The device in step 6 of start-up, bench 3 holding data. -/
def clearing1 : State := { at3 { b3 with drawer := [(0, 1)], clearing := true } with dev := { phase := .clear, usable := BitVec.allOnes 128 } }
theorem hyp_WipesAndClears : clearing1.clocked = true ∧ clearing1.dev.phase = .clear ∧ clearing1.glb.wipeReset = none ∧
    ({ clearing1 with glb := { clearing1.glb with wipeReset := some 7 } } : State).glb.wipeReset = some 7 ∧
    ({ on3 run0 with glb := { (on3 run0).glb with wipe := some 1 } } : State).glb.wipe = some 1 ∧
    ({ on3 run0 with glb := { (on3 run0).glb with wipe := some 0, wipeReset := some 6 } } : State).glb.wipeReset = some 6 ∧
    (on3 run0).glb.wipeReset = none ∧ (at3 { b3 with clearing := true }).alive = true ∧ ((at3 { b3 with clearing := true }).bench 3).xfers = [] := by
  decide +kernel
theorem test_clear_done : ((nx .clearDone clearing1).dev.phase, ((nx .clearDone clearing1).bench 3).drawer) = (.planes, []) ∧
    ((nx (.benchClearDone 3) (at3 { b3 with drawer := [(0, 1)], clearing := true })).bench 3).drawer = [] ∧
    (nx (.secureWipeDone 44) { on3 run0 with glb := { (on3 run0).glb with wipe := some 1 } }).glb.wipe = none ∧
    ((nx (.veneerInvalDone 0) { on3 run0 with tens := [(0, { waysBusy := true })] }).ten 0).waysBusy = false := by decide +kernel

/-- Bench 3 outside every partition, idle. -/
def spare3 : State := { at3 { planeOk := false, drawer := [(0, 1)] } with tens := [] }
/-- A plane run on bench 3 in progress. -/
def planes3 (pres : Bool) : State := { spare3 with
  benches := [(3, { plane := .running pres, drawer := [(0, 1)] })], glb := { spare3.glb with mbist := { busy := true, runMem := 7, mem := 7, bench := 3 } } }
theorem hyp_PlaneRuns : spare3.cbOpen = true ∧ (0x80700003 : Word).getLsbD 31 = true ∧ (0x00700003 : Word).getLsbD 31 = false ∧
    spare3.glb.mbist.busy = false ∧ spare3.usable 3 = true ∧ spare3.partOf 3 = none ∧ (on3 run0).partOf 3 = some 0 ∧
    (at3 { plane := .waiting }).alive = true ∧ ((at3 { plane := .waiting }).bench 3).plane = .waiting ∧
    (∀ k, k < 4 → (((at3 { plane := .waiting }).bench 3).ctx k).status = .empty) ∧ (planes3 false).alive = true ∧ (planes3 false).dev.rest = .awake ∧
    (planes3 false).glb.mboxGo = none ∧ (∀ e ∈ (planes3 false).benches, e.2.plane ≠ .waiting) ∧ twf {} (planes3 false).benches = true := by decide +kernel
theorem test_plane_runs : ((nx (.glbMbistCtl 0x80700003) spare3).bench 3).plane = .running false ∧ (nx (.glbMbistCtl 0x80700003) spare3).glb.mbist.busy = true ∧
    (nx (.glbMbistCtl 0x80700003) (on3 run0)).glb.mbist.busy = false ∧ ((nx (.planeRunBegin 3) (at3 { plane := .waiting })).bench 3).plane = .running true ∧
    ((nx (.planeRunEnd []) (planes3 false)).bench 3).drawer = [] ∧ ((nx (.planeRunEnd []) (planes3 true)).bench 3).drawer = [(0, 1)] ∧
    (nx (.planeRunEnd [{ bench := some 3, slice := 0, mem := 20, addr := 0 }]) (planes3 true)).usable 3 = false := by decide +kernel

/-! ### The stroke reference and Molarga -/

/-- A device in a ring of 8 in dimension 0, port 0 as given. -/
def ring (q : Port) (k : Stroke) : State := { on3 run0 with
  ports := [(0, q)], stroke := k, links := { linken := true, dims := [(0, { size := 8 })], porten := 0xFFFF, closed := false, retrainEn := true } }
/-- A trained port. -/
def up : Port := { st := .active }
/-- A marker of master 6 with rank 1, at count 77. -/
def mark (len : BitVec 8) (arrival : Int) : Marker := { count := 77, rank := 9, len := len, masterRank := 1, masterId := 6, arrival := arrival }

theorem hyp_StrokeBoundaryAndStates : (ring up {}).clocked = true ∧
    (ring up { state := 1, adopt := some (mark 14 640), adoptBy := 640 }).stroke.adopt = some (mark 14 640) ∧
    (((640 : Int) + 5) / 10).natAbs ≤ 64 ∧ 64 < (((645 : Int) + 5) / 10).natAbs ∧
    (ring up { state := 2, silent := 2 }).stroke.silent = 2 ∧ (ring up { state := 1, role := 2, listened := 8 }).stroke.listened = 8 ∧
    ((ring up {}).port 0).live = true ∧ (ring {} { state := 4, role := 2 }).stroke.state = 4 ∧
    (ring up { state := 4, held := 64 }).stroke.held = 64 := by decide
theorem test_stroke_states : (nx .strokeHoldover (ring up { state := 2, silent := 2, master := some (1, 6) })).stroke.lost = some (1, 6) ∧
    (nx .enterMaster (ring up { state := 1, role := 2, listened := 8, rank := 4 })).stroke.master = some (4, 5) ∧
    (nx .enterMaster (ring up { state := 1, role := 2, listened := 7, rank := 4 })).stroke.state = 1 ∧
    (nx .enterMaster (ring {} { state := 1, role := 2, listened := 8, rank := 4 })).stroke.state = 1 ∧
    (nx .strokeFreerun (ring up { state := 4, held := 64 })).stroke.state = 5 := by decide +kernel
/-- An offset of 64 cycles is slewed, one cycle in the stroke that begins; one of 65 is removed in it. -/
theorem test_stroke_step : (({ state := 1, adopt := some (mark 14 640), adoptBy := 640 } : Stroke).edge true).slew = 63 ∧
    (({ state := 1, adopt := some (mark 14 645), adoptBy := 645 } : Stroke).edge true).span = 16449 := by decide +kernel

/-- A trained port that measured a round trip of 60 units. -/
def up60 : Port := { up with rtt := some 60 }
theorem hyp_MarkersAndTiming : ((ring up60 {}).port 0).live = true ∧ (mark 14 0).masterId ≠ (ring up60 {}).dev.id ∧
    (ring up60 { state := 2, master := some (1, 6) }).pathsTo 6 = some (0, 1) ∧
    (ring up60 { state := 2, master := some (1, 6) }).stroke.redundant = none ∧ (ring up60 { state := 2, stepBy := 65 }).stroke.stepBy ≠ 0 ∧
    (ring up60 { state := 1 }).onPath 0 6 = true ∧ (ring up60 { state := 1 }).stroke.role ≠ 2 ∧ (mark 14 0).len.toNat = ({} : Stroke).len ∧
    (mark 13 0).len.toNat ≠ ({} : Stroke).len ∧ (ring up60 { state := 1, lenLogged := true }).stroke.lenLogged = true ∧
    ((ring { st := .measure, asked := some 100 } {}).port 0).asked = some 100 := by decide
/-- The one-way latency is half the round trip; the offset is rounded to the nearest cycle; one cycle is slewed in the present stroke. -/
theorem test_markers : let k : Stroke := { state := 2, master := some (1, 6) }
    (nx (.stroke 0 (mark 14 64)) (ring up60 k)).stroke.slew = 2 ∧ (nx (.stroke 0 (mark 14 65)) (ring up60 k)).stroke.slew = 3 ∧
    (nx (.stroke 0 (mark 14 65)) (ring up60 k)).stroke.span = 16385 ∧
    (nx (.stroke 0 (mark 14 0)) (ring up60 { state := 1 })).stroke.count = 77 ∧ (nx (.stroke 0 (mark 13 0)) (ring up60 { state := 1 })).stroke.lenLogged = true ∧
    ((nx (.timingRsp 0 100 30 250) (ring { st := .measure, asked := some 100 } {})).port 0).rtt = some 120 := by decide

/-- What device 6, the next in the ring, states on its port 2. -/
def peer6 : TrainInfo := { peerId := 6, peerPort := 2, len := 14, sizes := 7, maxRate := 1 }
theorem hyp_PortTraining : (ring { st := .check, peer := some peer6 } {}).wireCheck 0 peer6 = .pass ∧
    (ring { st := .check, peer := some peer6 } {}).wireCheck 0 { peer6 with peerPort := 0 } = .miswired ∧
    (ring { st := .check, peer := some peer6 } {}).wireCheck 0 { peer6 with peerId := 1 } = .broken ∧
    ((ring { st := .measure, timings := 16 } {}).port 0).timings = 16 ∧ (ring up {}).links.retrainEn = true ∧
    ((ring up {}).port (0 ^^^ 1)).retrain = false ∧ ((3 : Nat) < 4 ∨ False) ∧ ((ring { up with sends := 16 } {}).port 0).sends = 16 ∧
    (-1201 : Int) < -1200 ∧ (-800 : Int) < -799 := by decide
theorem test_training : ((nx (.linkTrainingStep 0) (ring { st := .check, peer := some peer6 } {})).port 0).rate = 1 ∧
    ((nx (.linkTrainingStep 0) (ring { st := .detect } {})).port 0).st = .identify ∧
    ((nx (.linkTrainingStep 0) (ring { st := .measure, timings := 15 } {})).port 0).st = .measure ∧
    ((nx (.linkTrainTimeout 0) (ring { st := .lock, fails := 2 } {})).port 0).fails = 3 ∧
    ((nx (.linkMarginCheck 0 false 9 4) (ring up {})).port 0).st = .equalise ∧
    ((nx (.linkDown 0 1) (ring { up with downs := [0, 0] } {})).port 0).dead = true ∧ (nx (.bypassPump (-1201)) (ring up {})).links.closed = true := by
  decide

/-- A RECEIVE entry of slot 2 from port 0 into rack 1 of bench 3, for this device. -/
def receive2 : DWord := BitVec.ofNat 64 (2 * 2 ^ 54 + 3 * 2 ^ 30 + 2 ^ 37 + 2 * 2 ^ 28 + 5 * 2 ^ 16 + 2 ^ 10)
/-- The device with that entry active and rack 1 of bench 3 as given. -/
def planned (r : Rack) : State := let s := ring { up with planOn := true } { planEn := true, planOn := true }
  { s with benches := [(3, { b3 with racks := [(1, r)] })], tens := [(0, { s.ten 0 with slotsUse := [(0, 4)], plan := [receive2] })] }
/-- A rack that the tick plan fills. -/
def filled : Rack := { rack0 with prod := 2 }
theorem hyp_FlitsAndSlots : (planned filled).clocked = true ∧ ((planned filled).port 0).live = true ∧ hdr.seq.toNat = ((planned filled).port 0).rxSeq ∧
    ((planned filled).port 0).queue = [] ∧ ((planned filled).port 1).queue = [] ∧
    (planned filled).matching 0 2 5 = [(0, 0, receive2)] ∧ peKind receive2 = 2 ∧ peBench receive2 = 3 ∧ peRack receive2 = 1 ∧
    (planned filled).usable 3 = true ∧ filled.enable = true ∧ filled.prod = 2 ∧ 0 ∉ filled.discard ∧ filled.fills = [] ∧ 0 < filled.freeSlots ∧
    0 ∉ filled.poisonNext ∧ ({ hdr with seq := 9 } : FlitHdr).seq.toNat ≠ ((planned filled).port 0).rxSeq := by decide +kernel
theorem hyp_FlitsAndSlots_others : (planned filled).matching 0 3 5 = [] ∧ (planned filled).matching 0 2 6 = [] ∧ (6 : BitVec 12) ≠ (planned filled).dev.id ∧
    (planned filled).nextHop 13 6 = none ∧ (planned filled).matching 0 2 13 = [] := by decide +kernel
/-- An ORIGIN entry of slot 2 by port 0, up to 8 flits for device 6, from rack 1 of bench 3. -/
def origin2 : DWord := BitVec.ofNat 64 (8 * 2 ^ 39 + 2 ^ 37 + 3 * 2 ^ 30 + 6 * 2 ^ 16 + 2 ^ 10 + 2)
/-- A rack that the tick plan drains, one of its slots published. -/
def drained : Rack := { rack0 with slotlog := 8, cons := 2, res := 1, cmt := 1, pub := 1 }
/-- The device with that entry active. -/
def origin (r : Rack) : State := let s := planned r
  { s with tens := [(0, { s.ten 0 with plan := [origin2] })] }
theorem hyp_FlitsAndSlots_origin : ((origin drained).activePlan.filter fun r => peKind r.2.2 < 2 && pePort r.2.2 = 0 && peSlot r.2.2 = 2).map (·.2.2) = [origin2] ∧
    peKind origin2 = 0 ∧ ((origin drained).port 0).transit = [] ∧ (origin drained).alive = true ∧ (origin drained).usable 3 = true ∧
    drained.enable = true ∧ drained.cons = 2 ∧ drained.pub ≠ drained.acq ∧ ((origin drained).bench 3).ecc = [] ∧
    (2 ^ drained.slotlog + 239) / 240 ≤ peFlits origin2 ∧ (2 ^ drained.slotlog + 239) / 240 ≤ usableFlits (origin drained).stroke.len ((origin drained).port 0).rate := by
  decide +kernel
theorem test_origin : (((nx (.slotStart 0 2) (origin drained)).bench 3).rack 1).rel = 1 ∧
    ((nx (.slotStart 0 2) (origin drained)).port 0).replay.map (fun f => (f.kind, f.payload.length)) = [(5, 240), (6, 16)] := by decide +kernel
theorem test_slot_end : (((nx (.slotEnd 0 hdr [7, 8]) (planned filled)).bench 3).drawer, (((nx (.slotEnd 0 hdr [7, 8]) (planned filled)).bench 3).rack 1).cmt) =
      ([(0x8000, 7), (0x8001, 8)], 1) ∧
    ((((nx (.slotData 0 hdr [7, 8]) (planned filled)).bench 3).rack 1).fills.map (·.bytes)) = [2] ∧
    ((nx (.flitCrcFailure 0) (planned filled)).port 0).nakSent = true ∧ ((nx (.slotStart 0 2) (planned filled)).port 0).slotNow = some 2 := by
  decide +kernel
theorem test_idle_acknowledges : ((nx (.idle 0 { hdr with ackseq := 4 }) (ring { up with replay := [4, 5].map fun n =>
    { kind := 0, vc := 0, cred := false, seq := n, dest := 6, src := 5, part := 0, payload := [] } } {})).port 0).replay.map (·.seq) = [5] := by decide +kernel

/-- A request from device 6. -/
def from6 : FlitHdr := { hdr with src := 6 }
/-- The device with bench 4 holding bytes. -/
def target4 : State := { ring up {} with benches := [(3, b3), (4, { drawer := [(0x20, 0x44), (0x21, 1)] })] }
/-- What its port then serves. -/
def serves4 (i : Instr) : List (Nat × Nat × Nat × Nat) := ((nx i target4).port 0).serving.map fun v => (v.num, v.msg.mop, v.out, v.paid)
theorem hyp_RequestsFromOtherDevices : target4.alive = true ∧ (target4.port 0).live = true ∧ (target4.port 0).queue = [] ∧ (target4.bench 3).xfers = [] ∧
    from6.seq.toNat = (target4.port 0).rxSeq ∧ from6.dest = target4.dev.id ∧ (target4.nextHop 6 5).map (·.2.2) = some 0 ∧
    (0x1DFFFC + 4 : Nat) ≤ 0x1E0000 ∧ (2 * 32 + 31 : Nat) < 2 ^ 8 ∧ (0x10000400 : Word).toNat ≥ 2 ^ 28 ∧ 256 < 255 + 2 ∧
    ({ from6 with dest := 4 } : FlitHdr).dest ≠ target4.dev.id ∧
    ({ target4 with ports := [(0, up), (2, up)] } : State).nextHop 4 6 = some (0, false, 2) := by decide +kernel
theorem test_request_enters : serves4 (.get 0 from6 (mh 0x401 0x20 0x60 4)) = [(0, 1, 0, 1)] ∧ serves4 (.get 0 from6 (mh 0x401 0x20 0x60 225)) = [(0, 1, 0, 2)] ∧
    (nx (.get 0 from6 (mh 0x401 0x20 0x60 4)) target4).noc.req.map (fun k => (k.src, k.dst, k.vc)) = [(.port 0, [.bench 4], 1)] ∧
    (nx (.dowel 0 from6 (mh 5 3 9 0)) target4).noc.req.map (·.dst) = [[.foreman]] ∧
    ((nx (.get 0 from6 (mh 0x401 0x20 0x60 4)) { target4 with ports := [(0, { up with used := [(2, 256)] })] }).port 0).waiting.map (·.mop) = [1] ∧
    (nx (.put 0 from6 (mh 0x400 0x20 1 4) [9, 8, 7, 6]) target4).noc.req = [] := by decide +kernel
theorem test_request_for_another : ((nx (.post 0 { from6 with dest := 4 } (mh 0x404 0 7 8)) { target4 with ports := [(0, up), (2, up)] }).port 2).replay.map
    (fun f => (f.kind, f.dest, f.src)) = [(4, 4, 6)] := by decide +kernel

/-- A message from device 6 that port 0 serves under number 0. -/
def msg6 (mop : Nat) (w0 w1 w2 w3 : Word) (d : List Byte) : OutMsg := { mop, dev := 5, part := 0, w0, w1, w2, w3, data := d, src := some 6, inVc := some 0 }
def serve6 (m : OutMsg) (n : Noc) : State := { target4 with
  ports := [(0, { up with serving := [{ num := 0, msg := m, out := 0, vc := 2, paid := 1 }], nextServe := 1, used := [(2, 1)] })], noc := { n with next := 9 } }
/-- What the packets act for, and a packet of port 0. -/
def ask6 (w : Bool) : Ask := { who := .port 0, tag := 0, write := w }
def pkt6 (b : Body) (e : Endp) : Pkt := { uid := 0, src := .port 0, dst := [e], vc := 1, part := 0, body := b }
def put6 : OutMsg := msg6 0 0x400 0x20 0 4 [9, 8, 7, 6]
def acc6 : OutMsg := msg6 3 0x403 0x20 0 4 [1, 0, 0, 0]
def get6 : OutMsg := msg6 1 0x401 0x20 0x60 4 []
def post6 (w2 : Word) : OutMsg := msg6 4 0x404 0 w2 8 []
def dowel6 (w1 : Word) : OutMsg := msg6 5 5 w1 9 0 []
theorem hyp_RequestsFromOtherDevices_served : ((serve6 get6 {}).served? 0 0).map (·.msg) = some get6 ∧ ((serve6 get6 {}).served? 0 0).map (·.tries) = some 0 ∧
    (serve6 get6 {}).usable 4 = true ∧ ((serve6 get6 {}).ten 0).mask.getLsbD 4 = true ∧ get6.w0.toNat / 2 ^ 8 % 128 = 4 ∧
    (serve6 get6 { req := [pkt6 (.read (ask6 false)) (.bench 4)] }).noc.canReach .req 0 = true ∧
    (serve6 get6 {}).reqHeld (pkt6 (.read (ask6 false)) (.bench 4)) = false ∧
    (serve6 get6 {}).noc.cut .req (pkt6 (.read (ask6 false)) (.bench 4)) = false ∧ ((serve6 get6 {}).bench 4).ecc = [] ∧
    (serve6 put6 { dat := [pkt6 (.wdata (ask6 true)) (.bench 4)] }).noc.canReach .dat 0 = true ∧
    (serve6 put6 {}).noc.cut .dat (pkt6 (.wdata (ask6 true)) (.bench 4)) = false ∧ put6.data.length = 4 ∧ accumTy (acc6.w0.toNat / 16 % 16) = some .int32 ∧
    ((serve6 get6 {}).bench 4).mailbox.length < 16 ∧ (0xD0E10003 : Word).toNat / 2 ^ 16 = 0xD0E1 := by decide +kernel
theorem hyp_RequestsFromOtherDevices_ends : (serve6 (dowel6 67) { req := [pkt6 (.op (ask6 false)) .foreman] }).noc.canReach .req 0 = true ∧
    (serve6 (dowel6 67) {}).noc.cut .req (pkt6 (.op (ask6 false)) .foreman) = false ∧ (dowel6 67).w1.toNat / 32 = 2 ∧
    (serve6 put6 { rsp := [{ back (.done (ask6 true) 0) (.bench 4) with dst := [.port 0] }] }).noc.canReach .rsp 0 = true := by decide +kernel
theorem test_served : (nx (.nocRequest 0 none) (serve6 get6 { req := [pkt6 (.read (ask6 false)) (.bench 4)] })).noc.dat.map (·.body) =
      [.data (ask6 false) [0x44, 1, 0, 0] false] ∧
    (nx (.nocRequest 0 none) (serve6 put6 { req := [pkt6 (.write (ask6 true)) (.bench 4)] })).noc.rsp.map (·.body) = [.grant (ask6 true)] ∧
    ((nx (.nocRequest 0 none) (serve6 (post6 7) { req := [pkt6 (.op (ask6 false)) (.bench 4)] })).bench 4).mailbox = [{ dev := 6, bench := 0, w0 := 7, w1 := 8 }] ∧
    ((nx (.nocRequest 0 none) (serve6 (post6 0xD0E10003) { req := [pkt6 (.op (ask6 false)) (.bench 4)] })).bench 4).jipend = 2 ∧
    ((nx (.nocRequest 0 none) (serve6 (dowel6 3) { req := [pkt6 (.op (ask6 false)) .foreman] })).dowel 3).count = 9 := by decide +kernel
theorem test_served_data : let n : Noc := { dat := [pkt6 (.wdata (ask6 true)) (.bench 4)], landings := [(.bench 4, ask6 true, 0)] }
    ((nx (.nocData 0 true none) (serve6 put6 n)).bench 4).drawer = [(0x20, 9), (0x21, 8), (0x22, 7), (0x23, 6)] ∧
    ((nx (.nocData 0 true none) (serve6 acc6 n)).bench 4).drawer = [(0x20, 0x45), (0x21, 1)] ∧
    ((nx (.nocResponse 0) (serve6 put6 { rsp := [{ back (.done (ask6 true) 0) (.bench 4) with dst := [.port 0] }] })).port 0).replay.map
      (fun f => (f.kind, f.vc, f.dest, f.payload.take 4)) = [(4, 2, 6, [6, 4, 0, 0])] := by decide +kernel

/-- Bench 3 awaiting device 6 under tag 2: the answer to a GET, or to a PUT. -/
def awaits (w : Bool) : Xfer :=
  { tag := 2, order := 0, msg := some (if w then .put else .get), dev := 6
    reads := if w then [] else [{ place := .remote 6 4 0x20, n := 4, sent := true, told := true }]
    writes := if w then [{ place := .remote 6 4 0x20, n := 4, data := some [1, 2, 3, 4], sent := true, told := true }]
      else [{ place := .drawer 3 0x40, n := 4 }]
    stage := if w then .writing else .reading }
/-- The device with that transfer. -/
def waiting6 (w : Bool) : State := { ring up {} with benches := [(3, { b3 with xfers := [awaits w], tags := { free := [] } })] }
/-- The response's flit. -/
def rspHdr : FlitHdr := { from6 with vc := 2 }
theorem hyp_AnswersFromOtherDevices : (waiting6 true).clocked = true ∧ (waiting6 true).alive = true ∧ ((waiting6 true).port 0).live = true ∧ 2 ≤ rspHdr.vc.toNat ∧
    rspHdr.dest = (waiting6 true).dev.id ∧ ((waiting6 true).port 0).queue = [] ∧
    (0x00818002 : Word).toNat / 2 ^ 15 % 128 = 3 ∧ (0x00818002 : Word).toNat / 2 ^ 22 % 64 = 2 ∧ (0x00818002 : Word).toNat % 16 = 2 ∧
    (0x00818006 : Word).toNat % 16 = 6 ∧ ((waiting6 false).farAsk 3 2).map (fun r => (r.1.write, r.2.2.place)) = some (false, .remote 6 4 0x20) ∧
    ((waiting6 true).farAsk 3 2).map (fun r => (r.1.write, r.2.2.place)) = some (true, .remote 6 4 0x20) ∧
    ((waiting6 true).farAsk 3 9).isNone = true ∧ (awaits true).mop true = 0 ∧ (awaits true).tries = 0 := by decide +kernel
theorem hyp_AnswersFromOtherDevices_retries : ((waiting6 true).nextHop 6 5).map (·.2.2) = some 0 ∧
    ({ waiting6 true with ports := [] } : State).nextHop 6 5 = none ∧ ({ awaits true with tries := 1 } : Xfer).tries ≠ 0 ∧
    ({ awaits true with msg := some (.post 1 2) } : Xfer).mop true = 4 := by decide +kernel
theorem test_answers : let t := nx (.getData 0 rspHdr (mh 0x00818002 0 0 4) [9, 8, 7, 6]) (waiting6 false)
    (t.noc.dat.map (·.dst), t.noc.rsp.length) = ([[.bench 3]], 1) ∧
    ((nx (.nocResponse 0) (nx (.nocData 0 true none) t)).bench 3).drawer = [(0x40, 9), (0x41, 8), (0x42, 7), (0x43, 6)] ∧
    ((nx (.nocResponse 0) (nx (.ack 0 rspHdr (mh 0x00818006 0 0 0)) (waiting6 true))).bench 3).xfers.map (fun x => (x.stage, x.status)) = [(.complete, 0)] ∧
    ((nx (.nocResponse 0) (nx (.ack 0 rspHdr (mh 0x00818006 0 2 0)) (waiting6 true))).bench 3).xfers.map (fun x => (x.stage, x.status)) = [(.complete, 2)] ∧
    ((nx (.msgTimeout 3 2) (waiting6 true)).bench 3).xfers.map (·.tries) = [1] := by decide +kernel

/-! ### The stream engine and the host -/

/-- A stream of bench 3 that has not begun, its first descriptor at 0x1000. -/
def fresh1 : Machine.Stream := { id := 0, tag := 2, nextDesc := 0x1000, part := 0, cmd := 0, secure := false }
/-- Bench 3 with a stream and a transfer. -/
def engine (st : List Machine.Stream) (x : List Xfer) : State := at3 { b3 with
  streams := st, xfers := x, tags := { free := [] }, drawer := [(0x40, 7), (0x41, 8), (0x1010, 7)] }
/-- A copy of 2 bytes of the drawer, from 0x40 to 0x80, and one more piece. -/
def copy2 : List Piece := [.copy 0 (some { place := .drawer 3 0x40, bit := 0 }) (some { place := .drawer 3 0x80, bit := 0 }) 16, .warm 1 0 4]
/-- A stream with pieces to issue. -/
def works1 : Machine.Stream := { fresh1 with fresh := false, desc := some ([], [], []), unit := 2, units := 2, work := copy2 }
/-- A complete message under tag 2, and the last transfer of a stream. -/
def complete1 (stream : Option Nat) : Xfer := { tag := 2, order := 0, stage := .complete, stream := stream }
theorem hyp_StreamEngine : (engine [fresh1] []).alive = true ∧ ((engine [fresh1] []).bench 3).ecc = [] ∧ (engine [fresh1] []).glb.wipe = none ∧
    (engine [fresh1] []).usable 3 = true ∧ ((engine [fresh1] []).bench 3).streams = [fresh1] ∧
    (∀ e ∈ (engine [fresh1] []).benches, ∀ o ∈ e.2.streams, o.born = fresh1.born) ∧
    fresh1.nextDesc + 64 ≤ 0x1E0000 ∧ (SDesc.mk (((engine [fresh1] []).bench 3).drawer.getBytes 0x1000 64)).step1 = true ∧ fresh1.burst = [] ∧
    works1.work = .copy 0 (some { place := .drawer 3 0x40, bit := 0 }) (some { place := .drawer 3 0x80, bit := 0 }) (8 * 2) :: .warm 1 0 4 :: [] ∧
    works1.tagUsed = false ∧ 0 < works1.unit ∧ works1.unit ≤ works1.units ∧ (complete1 none).status < 2 ∧ ((engine [] [complete1 none]).bench 3).msgQ = [] ∧
    ({ fresh1 with fresh := false } : Machine.Stream).desc = none := by decide +kernel

/-- A COPY of the tensor at 0x4000 of host memory's addresses to the one at 0x4080, one tile. -/
def copyDesc : List Byte := leBytes 8 0x4000 ++ leBytes 8 0x4080 ++ List.replicate 12 0 ++ [1, 0, 1, 0] ++ List.replicate 32 0
/-- A sealed INT8 tensor of 2 elements in the drawer, but for its SEAL. -/
def tensorBody (base : Nat) : List Byte := leBytes 8 base ++ leBytes 8 base ++ leBytes 8 2 ++ leBytes 4 0x1040 ++ leBytes 4 0x80000000 ++ leBytes 4 2 ++
  List.replicate 20 0 ++ leBytes 8 1 ++ List.replicate 60 0
/-- The tensor descriptor. -/
def tensor (base : Nat) : List Byte := tensorBody base ++ leBytes 4 (Config.sealCode 0 (tensorBody base) 0).toNat
/-- A stream with one more descriptor of its burst, between tensors that it has. -/
def later1 : Machine.Stream := { fresh1 with fresh := false, remain := 1, burst := [copyDesc], prevTd := [(0x4000, tensor 0x40), (0x4080, tensor 0x80)] }
theorem hyp_StreamEngine_later : copyDesc.length = 64 ∧ (SDesc.mk copyDesc).op = 0 ∧ (SDesc.mk copyDesc).step1 = false ∧ (SDesc.mk copyDesc).step2 = false ∧
    (SDesc.mk copyDesc).src = 0x4000 ∧ (SDesc.mk copyDesc).dst = 0x4080 ∧ (SDesc.mk copyDesc).units = 1 ∧ (TDesc.mk (tensor 0x40)).count = 2 ∧
    (engine [later1] []).checkStream 3 0 ⟨copyDesc⟩ ⟨tensor 0x40⟩ ⟨tensor 0x80⟩ = none ∧ (engine [later1] []).dev.epoch = 0 := by decide +kernel
theorem seal_bytes (w : Word) : leNat (leBytes 4 w.toNat) = w.toNat := by
  simp only [leBytes, leNat, BitVec.toNat_ofNat]
  have := w.isLt
  omega
theorem hyp_StreamEngine_sealed (base : Nat) (hb : (tensorBody base).length = 124) (h1 : (TDesc.mk (tensor base)).sealed_ = true)
    (h2 : (TDesc.mk (tensor base)).part = 0) (h3 : (TDesc.mk (tensor base)).dist ≠ 2) : (TDesc.mk (tensor base)).useOk 0 0 = true := by
  have ht : (tensor base).take 0x7C = tensorBody base := by unfold tensor; rw [List.take_left' hb]
  have hs : (TDesc.mk (tensor base)).sealF = (Config.sealCode 0 (tensorBody base) 0).toNat := by
    unfold TDesc.sealF bfld fld tensor
    rw [List.drop_left' hb, List.take_of_length_le (by simp [leBytes]), seal_bytes]
    have := (Config.sealCode 0 (tensorBody base) 0).isLt
    omega
  unfold TDesc.useOk TDesc.sealedBytes
  rw [if_neg h3, List.append_nil, ht, hs, h1, h2]; simp
theorem hyp_StreamEngine_seals : (TDesc.mk (tensor 0x40)).useOk 0 0 = true ∧ (TDesc.mk (tensor 0x80)).useOk 0 0 = true :=
  ⟨hyp_StreamEngine_sealed _ (by decide +kernel) (by decide +kernel) (by decide +kernel) (by decide +kernel),
    hyp_StreamEngine_sealed _ (by decide +kernel) (by decide +kernel) (by decide +kernel) (by decide +kernel)⟩
theorem test_engine : ((nx (.descriptorFetch 3) (engine [fresh1] [])).bench 3).tags.stat 2 = 5 ∧
    ((nx (.descriptorFetch 3) (engine [fresh1] [])).bench 3).splitUsed = (0, 0, 16) ∧
    ((nx (.transferIssue 3) (engine [works1] [])).bench 3).drawer = [(0x40, 7), (0x41, 8), (0x80, 7), (0x81, 8), (0x1010, 7)] ∧
    ((nx (.transferComplete 3 2) (engine [] [complete1 none])).bench 3).tags.free = [2] ∧
    ((nx (.transferComplete 3 2) (engine [{ fresh1 with fresh := false, tagUsed := true }] [complete1 (some 0)])).bench 3).streams = [] := by decide +kernel

/-- A module that has trained. -/
def module1 : Hpp := { up := true }
/-- A transfer of bench 3 that reads 2 bytes of host memory to 0x80, and one that writes 2 bytes to host memory. -/
def hostRead2 : Xfer := { tag := 2, order := 0, piece := some (.copy 0 (some { place := .host 0x5000, bit := 0 }) (some { place := .drawer 3 0x80, bit := 0 }) 16)
                          reads := [{ place := .host 0x5000, n := 2, sent := true, pa := 0x9000 }], writes := [{ place := .drawer 3 0x80, n := 2 }] }
/-- The writing one. -/
def hostWrite2 : Xfer := { tag := 2, order := 0, stage := .writing
                           writes := [{ place := .host 0x5000, n := 2, data := some [9, 8], sent := true, told := true, pa := 0x9000 }] }
/-- Their requests. -/
def reqRead : HostReq := { tag := 7, use := .run (ask1 false), part := 0, pa := 0x9000, len := 2, write := false, sent := true }
/-- The request of the writing one. -/
def reqWrite : HostReq := { tag := 7, use := .run (ask1 true), part := 0, pa := 0x9000, len := 2, write := true, data := [9, 8], sent := true }
/-- The request of an interrupt message. -/
def reqIrq : HostReq := { tag := 7, use := .irq 0, part := 0, pa := 0x9000, len := 4, write := true, data := [1, 2, 3, 4], sent := true }
/-- The request for a missing line of the Veneer cache, and the look-up that waits for it. -/
def reqFill : HostReq := { tag := 7, use := .fill (ask1 false), part := 0, pa := 0x9000, len := 128, write := false, sent := true }
def look1 : Lookup := { o := ask1 false, part := 0, pa := 0x9000, n := 2, fills := [(0x9000 / 128, true)] }
/-- Module 0 with requests, bench 3 with transfers. -/
def hosted (r : List HostReq) (x : List Xfer) : State := { at3 { b3 with xfers := x, tags := { free := [] } } with hpps := [(0, { module1 with reqs := r })] }
/-- A device whose benches but 3 are as at reset holds transfers in bench 3 only. -/
theorem only_bench_3 (v : Bench) (s : State) (h : s.benches = [(3, v)]) (j : Nat) (hj : j ≠ 3) : (s.bench j).xfers = [] := by
  simp [State.bench, h, tget, Ne.symm hj]
theorem hyp_HostAnswers : (hosted [reqRead] [hostRead2]).alive = true ∧ ((hosted [reqRead] [hostRead2]).hpp 0).works = true ∧
    ((hosted [reqRead] [hostRead2]).hpp 0).req? 7 false = some reqRead ∧ ((hosted [reqWrite] [hostWrite2]).hpp 0).req? 7 true = some reqWrite ∧
    ((hosted [reqIrq] []).hpp 0).req? 7 true = some reqIrq ∧ (hosted [reqRead] [hostRead2]).askRun (ask1 false) = some (3, hostRead2, hostRead2.reads.getD 0 { place := .host 0, n := 0 }) ∧
    (∀ q ∈ ((hosted [reqRead] [hostRead2]).hpp 0).reqs, q.sent = true) ∧ ((hosted [reqIrq] []).ten 0).irqAgain = false ∧
    ((hosted [reqFill] []).hpp 0).req? 7 false = some reqFill ∧ ([look1].find? fun l => l.o = ask1 false) = some look1 := by decide +kernel
theorem test_host : let t := nx (.rdData 0 7 false false [5, 6]) (hosted [reqRead] [hostRead2])
    (t.noc.dat.map (fun k => (k.src, k.dst)), t.noc.rsp.map (·.body)) = ([(.hpp 0, [.bench 3])], [.done (ask1 false) 0]) ∧
    ((nx (.nocResponse 0) (nx (.nocData 0 true none) t)).bench 3).drawer = [(0x80, 5), (0x81, 6)] ∧
    ((nx (.rdData 0 7 true false [5, 6]) (hosted [reqRead] [hostRead2])).ten 0).irqStatus = 4 ∧
    (nx (.wrAck 0 7 false) (hosted [reqWrite] [hostWrite2])).host.mem = [(0x9000, 9), (0x9001, 8)] ∧
    ((nx (.nocResponse 0) (nx (.wrAck 0 7 true) (hosted [reqWrite] [hostWrite2]))).bench 3).xfers.map (fun x => (x.stage, x.status)) = [(.complete, 3)] ∧
    (nx (.wrAck 0 7 false) (hosted [reqIrq] [])).host.mem = [(0x9000, 1), (0x9001, 2), (0x9002, 3), (0x9003, 4)] ∧
    ((nx (.snpInv 0 1 0x9000) (hosted [] [])).hpp 0).rxSeq = ((hosted [] []).hpp 0).rxSeq + 1 := by decide +kernel

theorem hyp_HostModules : (hosted [] []).clocked = true ∧ (hosted [] []).dev.phase ≠ .fuses ∧ ((hosted [] []).hpp 1).up = false ∧
    ((hosted [] []).hpp 1).down = false ∧ ((hosted [reqRead] [hostRead2]).hpp 0).reqs = [reqRead] ∧
    ({ module1 with spares := [1] } : Hpp).spares = [(63 : BitVec 9).toNat / 32] ∧ ({ reqRead with sent := false } : HostReq).sent = false ∧
    ({ module1 with used := 512 } : Hpp).used - 1 < 512 := by decide +kernel
theorem hyp_HostModules_quiet (j : Nat) : ((hosted [] []).bench j).xfers = [] := by
  by_cases h : j = 3
  · subst h; decide +kernel
  · exact only_bench_3 _ _ rfl j h
theorem test_modules : ((nx (.hppTrained 1 true) (hosted [] [])).hpp 1).up = true ∧ ((nx (.hppRetrain 0 63 true) (hosted [] [])).hpp 0).spares = [1] ∧
    ((nx (.hppTimeout 0 true) (hosted [reqRead] [hostRead2])).hpp 0).resend = some 0 ∧
    ((nx (.hppFrame 0 { crcOk := false, ackseq := 0, nak := false, credit := 0 }) (hosted [] [])).hpp 0).nakOwed = true ∧
    ((nx (.hppFrame 0 { crcOk := true, ackseq := 3, nak := true, credit := 1 }) (hosted [] [])).hpp 0).resend = some 4 := by decide +kernel

/-! ### Registers -/

/-- The device with partition 0 selected at an item of GLB_PART_SEL. -/
def selects (item : Nat) : State := { on3 run0 with glb := { (on3 run0).glb with selItem := item } }
theorem hyp_GlobalRegisterWrites : (on3 run0).cbOpen = true ∧ State.reset.cbOpen = false ∧ ({ dev := { phase := .unpowered } } : State).dev.phase = .unpowered ∧
    (on3 run0).stroke.lock = false ∧ (on3 run0).glb.pinlock = false ∧ ((0x5C : Word).toNat % 4 = 0 ∧ (0x5C : Word).toNat ≤ 0x5C) ∧
    ((0x5D : Word).toNat % 4 ≠ 0) ∧ (0x9C : Nat) % 0x1000 ≤ 0x9C ∧ (on3 run0).clocked = true := by decide
theorem test_register_write : (nx (.registerWrite 0x60 0 true) (on3 run0)).glb.resp = (2, 0) ∧ (nx (.registerWrite 0x60 0 false) (on3 run0)).glb.resp = (1, 0) ∧
    (nx (.registerWrite 0x2C 1 true) (on3 run0)).glb.resetCause = 0 ∧ (nx (.registerWrite 0x48 0x3B000000 true) (on3 run0)).glb.alertT = 95 ∧
    (nx (.registerWrite 0 0 true) State.reset).glb.resp = (3, 0) := by decide +kernel
theorem test_ticks : (nx .glbTickCountLo { on3 run0 with stroke := { count := 0x500000007 } }).glb.resp = (0, 7) ∧
    (nx .glbTickCountLo { on3 run0 with stroke := { count := 0x500000007 } }).stroke.latch = 5 ∧ (nx (.glbTickCtl 0x8004009B) (on3 run0)).stroke.len = 11 ∧
    (nx (.glbTickCtl 0x8004009B) (on3 run0)).stroke.state = 1 ∧ (nx (.glbPinmux 5) (on3 run0)).glb.parking = [0] ∧
    (nx (.parkEnd 0) (nx (.glbPinmux 5) (on3 run0))).glb.parking = [] := by decide +kernel

theorem hyp_PartitionConfiguration : (selects 2).cbOpen = true ∧ (selects 2).glb.selPart < 8 ∧ (selects 2).usable 5 = true ∧
    (∀ q, q < 8 → ((selects 2).ten q).mask.getLsbD 5 = false) ∧ ((selects 2).bench 5).leaving = none ∧
    ((on3 run0).ten 0).ways &&& ~~~0 = 0 ∧ ((on3 run0).ten 0).enable = true ∧ (((selects 2).bench 3).ctx 0).status ≠ .empty := by decide +kernel
theorem test_partition : ((nx (.partCfgBench 0x1038) (selects 2)).ten 0).mask = 0x1038 ∧ ((nx (.partCfgBench 0x1018) (selects 7)).ten 0).mask = 0x1018 ∧
    ((nx (.partCfgBench 0x1008) (selects 2)).bench 4).clearing = true ∧ ((nx (.partCfgBench 0x1010) (selects 2)).bench 3).leaving = some 0 ∧
    ((nx (.partCfgSlots 5) (selects 7)).ten 0).slots = [(0, 0x500000000)] ∧ ((nx (.partCfgWaysAllowed 0xFFFF) (selects 1)).ten 0).waysAllowed = 0xFFFF ∧
    ((nx (.partCfgControl 0) (selects 0)).ten 0).cancel = some 2 := by decide +kernel

/-- A partition with racks of 8 commands and completions, its interrupt address and an event log. -/
def window : Tenant := { enable := true, mask := 0x1018, cmdSize := 3, cplSize := 3, evSize := 3, cmdBase := 0x40, cplBase := 0x10, evBase := 0x20, irqAddr := 0x5000, xen := true }
/-- A translation of partition 0 that maps its lowest 2 MiB to themselves. -/
def identity : XEntry := { part := 0, va := 0, big := true, base := 0, r := true, w := true, x := true }
/-- The device with partition 0 as given and host module 0 in service. -/
def tenant (t : Tenant) : State := { on3 run0 with tens := [(0, t)], hpps := [(0, { module1 with xlat := [(0, identity)] })] }
theorem hyp_WindowControlWrites : (tenant window).cbOpen = true ∧ ((tenant { window with cmdEn := true }).ten 0).cmdEn = true ∧ window.cmdEn = false ∧
    ((3 : Nat) ≤ window.cmdSize ∧ window.cmdSize ≤ 16) ∧ window.cmdBase % 64 = 0 ∧ window.cmdBase + 2 ^ window.cmdSize * 64 ≤ 2 ^ 52 ∧
    (tenant window).glb.late = [] ∧ ((8 : Word) - 0).toNat ≤ 2 ^ window.cmdSize ∧ ¬ (((9 : Word) - 0).toNat ≤ 2 ^ window.cmdSize) ∧
    ({ window with irqStatus := 1, irqMask := 0 } : Tenant).irqLive ≠ 0 ∧ window.irqLive = 0 ∧ (tenant window).foremanModule = some 0 ∧
    ((tenant window).translate 0 0 0x5000 .write).2 = .ok 0x5000 := by decide +kernel
theorem test_window : ((nx (.cmdEnable 0) (tenant window)).ten 0).cmdEn = true ∧ ((nx (.cmdEnable 0) (tenant { window with cmdSize := 17 })).ten 0).cfgerr = 4 ∧
    ((nx (.cmdEnable 0) (tenant { window with cmdBase := 0x20 })).ten 0).cfgerr = 1 ∧ ((nx (.cmdEnable 0) (tenant { window with cmdBase := 2 ^ 52 - 64 })).ten 0).cfgerr = 3 ∧
    ((nx (.doorbell 0 8) (tenant { window with cmdEn := true })).ten 0).cmdTail = 8 ∧ ((nx (.doorbell 0 9) (tenant { window with cmdEn := true })).ten 0).cfgerr = 3 ∧
    ((nx (.tenCplHead 0 1) (tenant window)).ten 0).cfgerr = 3 ∧ ((nx (.evlogEnable 0) (tenant window)).ten 0).evlogEn = true := by decide +kernel
theorem test_interrupt_message : ((nx (.tenIrqMask 0 0) (tenant { window with irqStatus := 1 })).hpp 0).reqs.map (·.pa) = [0x5000] ∧
    ((nx (.tenIrqStatus 0 1) (tenant { window with irqStatus := 3, irqMask := 0, irqSent := true })).ten 0).irqAgain = true ∧
    ((nx (.cancel 0) (tenant window)).bench 3).jipend = 0x80 ∧ ((nx (.resume 0) (tenant { window with halted := true, haltWhy := 1 })).ten 0).halted = false := by
  decide +kernel

/-- A translation of partition 0 at 0x200000. -/
def xlate : XEntry := { part := 0, va := 0x200000, big := false, base := 0x9000, r := true, w := true, x := false }
/-- The partition with an invalidation in progress, a dowel and a translation. -/
def translated : State := { tenant { window with xen := true, invBusy := true, dowelOp := 1, dowelIdx := 3, ways := 1, waysAllowed := 3 } with
  hpps := [(0, { module1 with xlat := [(5, xlate)], reqs := [{ reqRead with old := true }] })], dowels := [(3, { count := 1, target := 5, waits := 8 })] }
theorem hyp_WindowTranslationAndDowels : translated.cbOpen = true ∧ translated.alive = true ∧ (translated.ten 0).invBusy = true ∧
    (translated.ten 0).xen = true ∧ (tenant window).cbOpen = true ∧ ({ window with xen := false } : Tenant).xen = false ∧ (30 : Nat) ≤ 52 ∧ (translated.ten 0).dowelOp.toNat = 1 ∧
    (∀ r ∈ (translated.ten 0).remote, r.2.2 ≠ 3) ∧ (∃ r ∈ (translated.hpp 0).reqs, r.part = 0 ∧ r.old = true) := by decide +kernel
theorem hyp_WindowTranslation_none_old : ∀ m, m < 4 → ∀ r ∈ ((tenant window).hpp m).reqs, r.part = 0 → r.old = false := by decide +kernel
theorem test_translation : ((nx (.tenXlatCtl 0 0) translated).hpp 0).xlat = [] ∧ ((nx (.tenXlatInval 0 2) translated).hpp 0).xlat = [] ∧
    ((nx (.tenXlatInval 0 4) translated).hpp 0).xlat = [(5, xlate)] ∧ ((nx (.tenXlatCtl 0 0x1E01) (tenant { window with xen := false })).ten 0).xspan = 30 ∧
    ((nx (.xlatInvalDone 0) translated).ten 0).invBusy = true ∧ ((nx (.tenVeneerWays 0 6) translated).ten 0).ways = 2 ∧
    ((nx (.dowelDataAdd 0 4) translated).dowel 3).count = 5 ∧ ((nx (.dowelDataAdd 0 4) translated).bench 3).jipend = 2 ∧
    ((nx (.dowelDataTarget 0 4) translated).dowel 3).target = 5 := by decide +kernel

/-- A command of the Foreman's mailbox, with its block at 0x9000 of host memory. -/
def mailed (word0 : Nat) (word1 : Nat) : State := let s := tenant window
  { s with glb := { s.glb with mboxAddr := 0x9000 }, host := { mem := Mem.setBytes [] 0x9000 (leBytes 4 word0 ++ leBytes 4 word1) } }
theorem hyp_ForemanMailbox : (mailed 0 0).cbOpen = true ∧ (mailed 0 0).glb.mboxBusy = false ∧ (mailed 0 0).dev.rest = .awake ∧ (mailed 0 0).glb.mbist.busy = false ∧
    (0xC0000006 : Word).toNat / 2 ^ 30 = 3 ∧ (0xC0000006 : Word).toNat / 2 ^ 11 % 2 ^ 19 = 0 ∧ (0x40000001 : Word).toNat / 2 ^ 30 = 1 ∧
    (0x80000001 : Word).toNat / 2 ^ 30 = 2 ∧ ((mailed 3 0).foremanClean 0 0x9000 64).2 = some ([3] ++ List.replicate 63 0) ∧
    ({ mailed 0 0 with host := { refuse := [(0x9000, 0x9000)] } } |>.foremanClean 0 0x9000 64).2 = none ∧
    ((mailed 0 0).foremanWrite 0 0x9000 [1]).2 = true ∧ (mailed 3 0).usable 3 = true := by decide +kernel
theorem test_mailbox : (nx (.addrLo 0x40000001) (mailed 0 0)).glb.mboxAddr = 0x40 ∧ (nx (.addrHi 0x80000001) (mailed 0 0)).glb.mboxAddr = 0x100009000 ∧
    (nx (.unknownOp 0xC0000008) (mailed 0 0)).glb.mboxStatus = 3 ∧ (nx (.policySet 0xC0000002) (mailed 0x00340100 100)).foreman.newPolicy = some (0x00340100, 100) ∧
    (nx (.policySet 0xC0000002) (mailed 0x00340100 105)).glb.mboxErr = 3 ∧ ((nx (.benchRetire 0xC0000006) (mailed 3 0)).bench 3).retireIn = some 2 ∧
    (nx (.benchRetire 0xC0000006) (mailed 128 0)).glb.mboxErr = 3 := by decide +kernel
theorem test_mailbox_links : (nx (.linkConfig 0xC0000001) (mailed 0x10000 0)).dev.id = 0 ∧
    (nx (.linkConfig 0xC0000001) (mailed 0x10007 0)).glb.mboxErr = 3 := by decide +kernel

/-! ### Resets, start-up, Rest, tamper -/

/-- The device in another phase. -/
def phased (p : Phase) : State := let s := on3 run0
  { s with dev := { s.dev with phase := p } }
/-- The device in another state of Rest. -/
def rests (r : Rest) : State := let s := at3 {}
  { s with dev := { s.dev with rest := r } }
theorem hyp_ResetsAndPower : (on3 run0).cbOpen = true ∧ (on3 run0).dev.phase ≠ .unpowered ∧ (phased .unpowered).dev.phase = .unpowered ∧
    (phased .inReset).dev.phase = .inReset ∧ (on3 run0).clocked = true ∧ ({} : Glb).fmLanes = 7 ∧ (5 : BitVec 3) ∈ ([3, 5, 6] : List (BitVec 3)) ∧
    (5 : BitVec 3).getLsbD 2 = true ∧ (rests .waking).dev.rest = .waking ∧ (rests .waking).clocked = true ∧ ((on3 run0).port 4).live = false ∧
    (on3 run0).alive = true ∧ (0x80D10000 : Word).getLsbD 31 = true ∧ (0x80D10000 : Word).toNat / 2 ^ 16 % 256 = 0xD1 := by decide +kernel
theorem test_resets : (nx (.swrst 0x80D10000) (on3 run0)).glb.resetCause = 5 ∧ (nx (.swrst 0x80D00003) (on3 run0)).glb.gpioIrq = true ∧
    (nx .resetN (on3 run0)).dev.phase = .inReset ∧ (nx (.pwrokFall true) (on3 run0)).glb.resetCause = 0x41 ∧
    (nx .foremanWatchdog (on3 run0)).glb.resetCause = 0x21 ∧ (nx (.restExit false true) (rests .waking)).glb.resetCause = 0x11 ∧
    (nx (.clockMonitor 54) (on3 run0)).glb.resetCause = 0x81 ∧ (nx .resetN (nx .clamp (on3 run0))).glb.resetCause = 9 := by decide +kernel
theorem test_power : (nx .powerOn (phased .unpowered)).glb.resetCause = 1 ∧ (nx .resetRelease (phased .inReset)).dev.phase = .fuses ∧
    (nx (.pwrokFall false) (on3 run0)).dev.phase = .unpowered ∧ (nx (.foremanLane 1) (on3 run0)).glb.fmLanes = 5 ∧
    (nx (.clockMonitor 37) (on3 run0)).usable 1 = false ∧ (nx (.clockMonitor 37) (on3 run0)).usable 3 = true := by decide +kernel

/-- An image of 4 bytes of code, of version 0x7FFFFFFF. -/
def image4 : List Byte := leBytes 4 0x58544657 ++ leBytes 4 0x7FFFFFFF ++ leBytes 4 4 ++ leBytes 4 (crc32 [1, 2, 3, 4]) ++
  List.replicate 48 0 ++ [1, 2, 3, 4] ++ List.replicate 96 0
/-- It passes every check of R660 where its signature is the vendor's and the ROM's version is lower. -/
theorem hyp_StartUp_image (h : Config.signatureOk image4 = true) (hv : Config.romVersion.toNat < 0x7FFFFFFF) : imageReason image4 1 = 0 := by
  have h1 : leNat (image4.take 4) = 0x58544657 := by decide +kernel
  have h2 : leNat ((image4.drop 8).take 4) = 4 := by decide +kernel
  have h3 : leNat ((image4.drop 12).take 4) = crc32 ((image4.drop 0x40).take 4) := by decide +kernel
  have h4 : leNat ((image4.drop 4).take 4) = 0x7FFFFFFF := by decide +kernel
  have h5 : image4.length = 164 := by decide +kernel
  have h6 : image4.take 164 = image4 := by decide +kernel
  have h7 : ((image4.drop 0x10).take 0x30).any (· ≠ 0) = false := by decide +kernel
  have h8 : ¬ (0x7FFFFFFF ≤ Config.romVersion.toNat) := by omega
  simp only [imageReason, List.drop_zero, h1, h2, h3, h4, h5, h6, h7, h8, h]
  simp
/-- The device in the fuse phase of its start-up. -/
def fusing : State := { State.reset with dev := { State.reset.dev with phase := .fuses } }
theorem hyp_StartUpRestAndTamper : fusing.clocked = true ∧ fusing.dev.phase = .fuses ∧
    crc32 (((List.range 39).filter fun i => decide (i ≠ 8)).flatMap fun i => leBytes 4 (tget (0 : Word) fusing.dev.fuses i).toNat) =
      (tget (0 : Word) fusing.dev.fuses 39).toNat ∧ (phased .boot).clocked = true ∧ imageReason [] 1 = 1 ∧ imageReason [] 2 = 1 ∧
    (on3 run0).cbOpen = true ∧ (on3 run0).dev.lifecycle = 0 ∧ (0x005A0100 : Word).toNat / 2 ^ 16 % 256 = 0x5A ∧
    (0x005A0100 : Word).toNat / 2 ^ 8 % 4 = (on3 run0).dev.lifecycle + 1 ∧ (rests .requested).mayRest = true ∧
    (rests .waking).links.parked = [] ∧ (rests .waking).glb.mboxGo = none ∧ (on3 run0).dev.tamper.contains .voltage = false ∧
    (on3 run0).tamperSeen .voltage = true ∧ (nx .clamp (on3 run0)).dev.clamped = true := by decide +kernel
theorem hyp_StartUp_boot_undone : ({ phased .boot with dev := { (phased .boot).dev with bootDone := false } } : State).dev.bootDone = false := rfl
theorem test_startup : (nx .fuseLoad fusing).dev.usable = BitVec.allOnes 128 ∧ (nx .fuseLoad fusing).dev.phase = .clear ∧
    (nx .fuseLoad { fusing with dev := { fusing.dev with fuses := tset 0 fusing.dev.fuses 39 1 } }).dev.usable = 0 := by decide +kernel
theorem test_lifecycle : (nx (.lifecycleAdvance 0x005A0200) (on3 run0)).glb.lifeTo = none ∧
    (nx .lifecycleDone { on3 run0 with glb := { (on3 run0).glb with lifeTo := some 1 } }).dev.lifecycle = 1 := by decide +kernel
theorem test_rest : (nx .restEnter (rests .requested)).dev.rest = .resting ∧ (nx (.restRequest 0xB73C012C) (at3 {})).dev.rest = .requested ∧
    (nx (.restExit true true) (rests .waking)).dev.rest = .awake ∧ (nx .restEnter (on3 run0)).dev.rest = .awake ∧
    (nx (.restWake 0x373C012C) (rests .resting)).dev.rest = .waking := by decide +kernel
theorem test_tamper : (nx (.tamper .voltage 0) (nx .clamp (on3 run0))).dev.tamper = [.voltage] ∧
    (nx (.tamperDeassert .voltage) { on3 run0 with dev := { (on3 run0).dev with tamper := [.voltage] } }).dev.tamper = [] := by decide +kernel

/-! ### The dispatcher -/

/-- A descriptor: OP, TAG 7, BMASK, ADDR, COUNT, the word at 0x24, ACTIVATE. -/
def desc (op mask addr count w24 : Nat) : List Byte := leBytes 4 op ++ leBytes 4 7 ++ leBytes 16 mask ++ leBytes 8 addr ++ leBytes 4 count ++ leBytes 4 w24 ++ List.replicate 24 0
/-- The only command of a partition, fetched. -/
def fetched (op mask addr count w24 : Nat) : State :=
  let s := tenant { window with cmdEn := true, cmds := [{ id := 9, bytes := desc op mask addr count w24 }] }
  { s with benches := [(3, {}), (4, { planeOk := true }), (12, {})] }
/-- What its precheck answers. -/
def prechecked (s : State) : Option (Nat × Nat) := match (s.ten 0).cmds with | c :: _ => s.precheck 0 c | [] => none
/-- The one completion of the partition: status, error, index, OP. -/
def answer (i : Instr) (s : State) : List (Nat × Nat × Nat × Nat) := ((nx i s).ten 0).cpls.map fun x => (x.status, x.err, x.index, x.op)
theorem hyp_DispatcherCommands : (fetched 0 0 0 0 0).dispatching = true ∧ (fetched 0 0 0 0 0).dev.rest = .awake ∧
    ((fetched 0 0 0 0 0).ten 0).halted = false ∧ (fetched 0 0 0 0 0).foremanModule.isSome = true ∧
    prechecked (fetched 0 0 0 0 0) = none ∧ prechecked (fetched 5 0 0 0 0) = none ∧ prechecked (fetched 1 0x1018 0x40 64 0x40) = none ∧
    prechecked (fetched 2 0x10 0x40 0 0x40040) = none ∧ prechecked (fetched 3 0 0x40 0 0) = none ∧ prechecked (fetched 4 0 0x40 0 0) = none ∧
    ({ id := 9, bytes := desc 6 0 0 0 0 } : Cmd).badFields = true ∧ ((fetched 1 0x1018 0x40 64 0x40).foremanRead 0 0x40 64 .exec).2 = .data (List.replicate 64 0) false ∧
    ((fetched 0 0 0 0 0).foremanClean 0 0x40 64).2 = some (List.replicate 64 0) ∧ ((fetched 0 0 0 0 0).foremanWrite 0 0x10 (List.replicate 16 0)).2 = true := by
  decide +kernel
theorem hyp_Dispatcher_ready : ((fetched 2 0x10 0x40 0 0x40040).bench 4).plane = .none ∧ ((fetched 2 0x10 0x40 0 0x40040).bench 4).planeOk = true ∧
    ({ window with cmdTail := 1 } : Tenant).cmdTail - window.cmdHead = 1 ∧
    ({ tenant window with host := { refuse := [(0x40, 0x7F)] } } |>.foremanClean 0 0x40 64).2 = none := by decide +kernel
theorem test_dispatch : answer (.nop 0) (fetched 0 0 0 0 0) = [(0, 0, 0, 0)] ∧ answer (.barrier 0) (fetched 5 0 0 0 0) = [(0, 0, 0, 5)] ∧
    answer (.nop 0) (fetched 6 0 0 0 0) = [(2, 3, 0, 6)] ∧ answer (.load 0) (fetched 1 0x1008 0x40 64 0x40) = [(0, 0, 0, 1)] := by decide +kernel
theorem test_dispatch_refused : answer (.load 0) (fetched 1 0x20 0x40 64 0x40) = [(2, 8, 0, 1)] ∧ answer (.load 0) (fetched 1 0x10 0x44 64 0x40) = [(2, 1, 0, 1)] ∧
    answer (.seal 0) (fetched 3 0 0x40 0 0) = [(0, 0, 0, 3)] ∧ answer (.planLoad 0) (fetched 4 0 0x40 0 0) = [(0, 0, 0, 4)] := by decide +kernel
theorem test_run : let x := ((nx (.run 0) (fetched 2 0x10 0x40 0 0x40040)).bench 4).ctx 0
    x.status = .waiting ∧ x.pc = 0x400040 ∧ x.mode = mSuper ∧ x.secEn = false ∧ x.cmd = 9 := by decide +kernel
theorem test_fetch : ((nx (.commandFetch 0) (tenant { window with cmdEn := true, cmdTail := 2 })).ten 0).cmds.map (·.id) = [0, 1] ∧
    ((nx (.commandFetch 0) { tenant { window with cmdEn := true, cmdTail := 1 } with host := { refuse := [(0x40, 0x7F)] } }).ten 0).haltWhy = 1 := by decide +kernel
/-- A partition with a numbered completion. -/
def owing (n : Word) : State := tenant { window with cplTail := n, cpls := [{ tag := 7, status := 0, err := 0, op := 5, bench := 0, index := 0, irq := true, id := 9, seq := some 3 }] }
theorem hyp_Dispatcher_completion : (owing 0).dispatching = true ∧ window.haltWhy ≠ 2 ∧ ¬ (2 ^ window.cplSize ≤ ((7 : Word) - window.cplHead).toNat) ∧
    2 ^ window.cplSize ≤ ((8 : Word) - window.cplHead).toNat := by decide +kernel
theorem test_completion : ((nx (.completionWrite 0) (owing 0)).ten 0).cplTail = 1 ∧ ((nx (.completionWrite 0) (owing 8)).ten 0).cplTail = 8 ∧
    ((nx (.completionWrite 0) (owing 0)).ten 0).irqStatus = 1 ∧
    ((nx (.completionWrite 0) { owing 0 with host := { refuse := [(0x10, 0x1F)] } }).ten 0).haltWhy = 2 := by decide +kernel
/-- A report of bench 4. -/
def rep4 (k : ReportKind) : Report := { source := 4, kind := k, fault := 8 }
/-- A device whose second report in line is of bench 4. -/
def reporting (k : ReportKind) : State := { tenant { window with evlogEn := true } with reports := [{ source := 3, kind := .bare }, rep4 k] }
theorem hyp_Dispatcher_events : (reporting .bare).alive = true ∧ (reporting .bare).reports = [{ source := 3, kind := .bare }] ++ rep4 .bare :: [] ∧
    (∀ r ∈ (reporting .bare).reports, r.source ≠ 5) ∧ (∀ x ∈ ([{ source := 3, kind := .bare }] : List Report), x.source ≠ 4) ∧
    ((reporting .bare).foremanWrite 0 0x20 (List.replicate 32 0) false).2 = true := by decide +kernel
theorem test_events : (nx (.eventAccept 4) (reporting .bare)).glb.seq = 1 ∧ (nx (.eventAccept 4) (reporting .bare)).dev.faults = 8 ∧
    (nx (.eventAccept 5) (reporting .bare)).glb.seq = 0 ∧ ((nx (.eventAccept 4) (reporting (.log 0x41 1 2 3 (some 0)))).ten 0).evHead = 1 ∧
    ((nx (.eventAccept 4) (reporting (.log 0x41 1 2 3 (some 0)))).ten 0).irqStatus = 2 := by decide +kernel

/-! ### Power, heat, the ports -/

/-- The Foreman as given, column 3 with its regulator on and a window that waits. -/
def foreman (f : Machine.Foreman) (k : Column) : State := { on3 run0 with foreman := f, cols := [(3, { k with vrcOn := true })] }
/-- A valid frame with nothing measured. -/
def frame0 : BitVec 25 := 1
theorem hyp_PowerAndHeat : (foreman {} {}).clocked = true ∧ (foreman {} {}).dev.phase ≠ .fuses ∧ ({} : Glb).fmin < ((foreman {} {}).col 3).target ∧
    ({} : Glb).plimit * 1000 < ([400000] : List Nat).sum / 1 ∧ ([100] : List Nat).sum / 1 ≤ ({} : Glb).plimit * 1000 ∧
    ({} : Glb).plimit * 1000 ≤ ([296000] : List Nat).sum / 1 + 5000 ∧ (List.replicate 64 (0x69 : Byte)).length = 64 ∧ frameOk frame0 = true ∧
    frameOk 0x200001 = false ∧ frameOk 0x600001 = true ∧ (0x600001 : BitVec 25).getLsbD 21 = true ∧ ((foreman {} {}).col 3).vrcOn = true ∧
    (foreman {} { ended := some { slack := some 5 } }).col 3 = { ended := some { slack := some 5 }, vrcOn := true } ∧
    ((foreman {} {}).col 3).settle ≥ 0 ∧ ((foreman {} { settle := 9 }).stroke.cycle < ((foreman {} { settle := 9 }).col 3).settle) ∧
    ({ on3 run0 with glb := { (on3 run0).glb with pinmux := 0x50 } } : State).pinActs 1 = 5 := by decide +kernel
theorem hyp_Power_floor : ∀ d, d < 16 → (({ on3 run0 with cols := (List.range 16).map fun c => (c, { target := 60 }) } : State).col d).target ≤ ({} : Glb).fmin := by
  decide +kernel
theorem test_power_loop : (nx (.powerLoop 100) (foreman {} {})).foreman.samples = [100] ∧ (nx (.powerLoop 400000) (foreman {} {})).cols ≠ (foreman {} {}).cols ∧
    (nx .powerRelease (foreman { samples := [100], pace := 3, tripPace := true } {})).foreman.pace = 3 ∧
    (nx .powerRelease (foreman { samples := [100], pace := 3 } {})).foreman.pace = 2 := by decide +kernel
theorem test_heat : (nx (.thermalCheck (List.replicate 64 0x69)) (foreman {} {})).foreman.pace = 15 ∧
    (nx (.thermalCheck (List.replicate 64 0x40)) (foreman {} {})).glb.trip = false ∧
    (nx (.thermalCheck (List.replicate 64 0x40)) (foreman {} {})).glb.tmax = 0x40 := by decide +kernel
theorem test_columns : ((nx (.columnEvaluation 3) (foreman {} { target := 80, freq := 80, ended := some { stopped := true } })).col 3).loopFreq = 110 ∧
    ((nx (.columnEvaluation 3) (foreman {} { target := 80, freq := 80, ended := some { slack := some 1 } })).col 3).loopFreq = 81 ∧
    ((nx (.columnEvaluation 3) (foreman {} { target := 80, freq := 80, gb := 10, ended := some { droop := some 4 } })).col 3).gb = 16 ∧
    ((nx (.telemetryFrame 3 0x600001) (foreman {} {})).usable 3) = false ∧ ((nx (.telemetryFrame 3 0x200001) (foreman {} {})).usable 3) = true ∧
    ((nx (.telemetryLoss 3 true) (foreman {} {})).usable 19) = false ∧ ((nx (.telemetryLoss 3 false) (foreman {} {})).col 3).lost = true ∧
    (nx (.fanTach 1) { on3 run0 with glb := { (on3 run0).glb with pinmux := 0x50 } }).foreman.fan = 1 := by decide +kernel

/-- A device that the fuses leave BLANK. -/
def blank : State := let s := on3 run0
  { s with dev := { s.dev with fuses := [(0, 0x128)] } }
theorem hyp_ManagementPorts : (on3 run0).dev.phase ≠ .unpowered ∧ (on3 run0).dev.clamped = false ∧ (nx .clamp (on3 run0)).dev.clamped = true ∧
    (on3 run0).dev.resetLow = false ∧ ({ (on3 run0).dev with resetLow := true } : Dev).resetLow = true ∧ blank.dev.phase ≠ .unpowered ∧
    (tget (0 : Word) blank.dev.fuses 8).toNat % 8 = 0 ∧ blank.jtag.fuseBusy = false ∧
    (on3 run0).clocked = true ∧ (on3 run0).dev.phase ≠ .fuses ∧ (phased .inReset).clocked = false ∧ decodeJig 3 0x000007FF = none ∧
    decodeJig 3 0x50240000 ≠ none ∧ (on3 run0).issues 3 .plain [] false = true := by decide +kernel
theorem test_jtag : (nx .idcode (on3 run0)).jtag.dr = 0x128F47 ∧ (nx .fuseread (nx .clamp (on3 run0))).jtag.dr = 0 ∧
    tget (0 : Word) (nx (.fuseprog 0x1900000003) blank).dev.fuses 25 = 3 ∧ tget (0 : Word) (nx (.fuseprog 0x1900000003) (on3 run0)).dev.fuses 25 = 0 ∧ (nx (.fuseprog 0x0800000003) blank).dev.fuses = blank.dev.fuses ∧
    (nx (.clampread 3 0x20) (nx (.clampread 3 0x20) (nx .clamp (at3 { b3 with drawer := [(0x20, 0x44), (0x21, 1)] })))).jtag.dr = 0x300000020 * 2 ^ 32 + 0x144 := by
  decide +kernel
theorem test_i3c : (nx (.entdaa 9) (on3 run0)).i3c.dyn = some 9 ∧ (nx (.setdasa 0x3B 9) (on3 run0)).i3c.dyn = none ∧
    (nx (.privateWrite [0x0C]) (on3 run0)).i3c.offset = 0x0C ∧ (nx (.privateWrite [0x0D]) (on3 run0)).i3c.offset = 0 ∧
    (nx .privateRead (on3 run0)).i3c.sent = [0x28, 1, 0xA3, 7] ∧ (nx .rstdaa (nx (.entdaa 9) (on3 run0))).i3c.dyn = none ∧
    ((nx (.reservedEncoding 3 0x000007FF) (on3 run0)).cc 3).jcause ≠ ((on3 run0).cc 3).jcause := by decide +kernel

/-! ### Reset and the invariants -/

theorem test_reset : State.reset.pending = [] ∧ State.reset.dev.id = 0xFFF ∧ State.reset.stroke.len = 14 ∧ State.reset.glb.resetCause = 1 ∧
    (State.reset.bench 7).jvec = 0x00400000 ∧ (State.reset.ten 3).irqMask = 0x1F := by decide +kernel
/-- The premise of the invariant statement: the reset state meets it, and its step is defined. -/
theorem hyp_EveryStepKeepsTheInvariants : State.reset.Inv ∧ ∃ t, step State.reset = .next t := by
  refine ⟨⟨fun k => ?_, by decide, ?_⟩, ⟨_, rfl⟩⟩
  · have : State.reset.bench k = {} := rfl
    rw [this]
    exact ⟨by decide, by decide, fun i => by show Board.legal {}; unfold Board.legal; decide⟩
  · intro p q b _ _ _ h
    have : (State.reset.ten p).mask = 0 := rfl
    simp [this] at h
theorem hyp_EveryStep_clearing_no_fuse : (tget (0 : Word) State.reset.dev.fuses 0).getLsbD 3 = true := by decide

end Sys2Proof.Tests
end

section
/-! The rack instructions (R292): what a retire, a wake and a publication leave of a bench, and the four instructions from that. -/

namespace Sys2Proof.RackProofs
open Sys2Proof Sys2Proof.Machine

/-! ### What a retire leaves -/

theorem loopEnd_regs (c : Ctx) (a nx : Word) : (loopEnd c a nx).1.regs = c.regs :=
  (congrArg Ctx.regs (loopEnd_frame c a nx).1 :)

theorem Ctx.retired_reg (c : Ctx) (sh : Option (BitVec 2)) (sl : Option Delay) (nx : Option Word) (q : Reg) :
    (c.retired sh sl nx).reg q = c.reg q := by
  have h : (c.retired sh sl nx).regs = c.regs := by
    unfold Ctx.retired
    cases sh <;> cases sl <;> exact loopEnd_regs ..
  unfold Ctx.reg
  rw [h]

theorem State.retiresFrom_reg (u t : State) (b : Nat) (q : Reg) : ((u.retiresFrom t b).cc b).reg q = (t.cc b).reg q := by
  unfold State.retiresFrom
  rw [State.retireInsn_cc, Ctx.retired_reg]

theorem State.retiresFrom_bench (u t : State) (b : Nat) :
    { (u.retiresFrom t b).bench b with ctxs := (t.bench b).ctxs, flight := (t.bench b).flight } = t.bench b := by
  obtain ⟨-, hbench, -⟩ := State.retireInsn_frame t b (u.cc b).modeShadow (u.cc b).delay none
  exact hbench

theorem State.retiresFrom_rack (u t : State) (b q : Nat) : ((u.retiresFrom t b).bench b).rack q = (t.bench b).rack q :=
  (congrArg (Bench.rack · q) (State.retiresFrom_bench u t b) :)

theorem State.retiresFrom_drawer (u t : State) (b : Nat) : ((u.retiresFrom t b).bench b).drawer = (t.bench b).drawer :=
  (congrArg Bench.drawer (State.retiresFrom_bench u t b) :)

theorem State.retiresFrom_jipend (u t : State) (b : Nat) : ((u.retiresFrom t b).bench b).jipend = (t.bench b).jipend :=
  (congrArg Bench.jipend (State.retiresFrom_bench u t b) :)

/-! ### The bench at issue -/

/-- The bench runs a task. -/
structure Runs (v : Bench) : Prop where
  cur : v.cur.isSome = true
  status : v.cc.status = .running

section
variable {s : State} {b : Nat} {kind : Kind} {uses : List Reg} {retire : Bool} (h : s.issues b kind uses retire = true)
include h

theorem State.atIssue_rack (q : Nat) : ((s.atIssue b retire).bench b).rack q = (s.bench b).rack q :=
  (congrArg (Bench.rack · q) (State.atIssue_frame h).bench :)

theorem State.atIssue_drawer : ((s.atIssue b retire).bench b).drawer = (s.bench b).drawer :=
  (congrArg Bench.drawer (State.atIssue_frame h).bench :)

theorem State.atIssue_runs : Runs ((s.atIssue b retire).bench b) := by
  have hcur : ((s.atIssue b retire).bench b).cur = (s.bench b).cur := (congrArg Bench.cur (State.atIssue_frame h).bench :)
  have hcc : ((s.atIssue b retire).bench b).cc = (s.bench b).cc := State.atIssue_cc h
  simp only [State.issues, State.canRun, Bool.and_eq_true, decide_eq_true_eq] at h
  obtain ⟨⟨⟨⟨⟨⟨_, hsome⟩, hrun⟩, _⟩, _⟩, _⟩, _⟩ := h
  exact ⟨hcur ▸ hsome, hcc ▸ hrun⟩

end

/-! ### Waking contexts -/

/-- What `Bench.wake` does to context `n`. -/
def wakeCtx (p : Await → Bool) (v : Bench) (n : Nat) : Bench :=
  let c := v.ctx n
  if p c.await then
    match c.status with
    | .waiting => v.setCtx n { c with status := .ready, await := .nothing }
    | .stalled => v.setCtx n { c with status := .running, await := .nothing }
    | _ => v
  else v

theorem wake_eq_foldl (v : Bench) (p : Await → Bool) : v.wake p = ([0, 1, 2, 3].foldl (wakeCtx p) v).pick := rfl

/-- From `v` to `w` only contexts that do not run differ. -/
structure KeepsRunning (v w : Bench) : Prop where
  cc : w.cc = v.cc
  rest : { w with ctxs := v.ctxs } = v

theorem KeepsRunning.runs {v w : Bench} (k : KeepsRunning v w) (h : Runs v) : Runs w := by
  have hcur : w.cur = v.cur := (congrArg Bench.cur k.rest :)
  exact ⟨hcur ▸ h.cur, k.cc ▸ h.status⟩

theorem KeepsRunning.trans {u v w : Bench} (k : KeepsRunning u v) (l : KeepsRunning v w) : KeepsRunning u w where
  cc := l.cc.trans k.cc
  rest := (congrArg (fun x : Bench => { x with ctxs := u.ctxs }) l.rest :).trans k.rest

/-- A context that does not run is replaced. -/
theorem keepsRunning_setCtx {v : Bench} (h : Runs v) {n : Nat} (hn : (v.ctx n).status ≠ .running) (c : Ctx) :
    KeepsRunning v (v.setCtx n c) where
  cc := by
    have hne : v.curN ≠ n := fun e => hn (e ▸ h.status)
    exact (Bench.ctx_setCtx v n v.curN c).trans (if_neg hne)
  rest := rfl

theorem keepsRunning_wakeCtx {v : Bench} (h : Runs v) (p : Await → Bool) (n : Nat) : KeepsRunning v (wakeCtx p v n) := by
  unfold wakeCtx
  simp only
  split
  · split
    · next hs => exact keepsRunning_setCtx h (by rw [hs]; decide) _
    · next hs => exact keepsRunning_setCtx h (by rw [hs]; decide) _
    · exact ⟨rfl, rfl⟩
  · exact ⟨rfl, rfl⟩

theorem keepsRunning_foldl_wakeCtx (p : Await → Bool) (l : List Nat) {v : Bench} (h : Runs v) :
    KeepsRunning v (l.foldl (wakeCtx p) v) := by
  induction l generalizing v with
  | nil => exact ⟨rfl, rfl⟩
  | cons n l ih =>
    have k := keepsRunning_wakeCtx h p n
    exact k.trans (ih (k.runs h))

theorem pick_of_runs {v : Bench} (h : Runs v) : v.pick = v := by
  obtain ⟨n, hn⟩ := Option.isSome_iff_exists.1 h.cur
  unfold Bench.pick
  rw [hn]

theorem keepsRunning_wake {v : Bench} (h : Runs v) (p : Await → Bool) : KeepsRunning v (v.wake p) := by
  have k := keepsRunning_foldl_wakeCtx p [0, 1, 2, 3] h
  rw [wake_eq_foldl, pick_of_runs (k.runs h)]
  exact k

theorem wake_rack {v : Bench} (h : Runs v) (p : Await → Bool) (q : Nat) : (v.wake p).rack q = v.rack q :=
  (congrArg (Bench.rack · q) (keepsRunning_wake h p).rest :)

theorem wake_drawer {v : Bench} (h : Runs v) (p : Await → Bool) : (v.wake p).drawer = v.drawer :=
  (congrArg Bench.drawer (keepsRunning_wake h p).rest :)

theorem wake_jipend {v : Bench} (h : Runs v) (p : Await → Bool) : (v.wake p).jipend = v.jipend :=
  (congrArg Bench.jipend (keepsRunning_wake h p).rest :)

/-! ### Rack operations of a running bench -/

/-- The bench with bit `i` of JIPEND set. -/
def pend (v : Bench) (i : Nat) : Bench := { v with jipend := v.jipend ||| w32 (2 ^ i) }

theorem State.bench_setPend_same (s : State) (b i : Nat) : (s.setPend b i).bench b = pend (s.bench b) i :=
  State.bench_modBench_same ..

theorem Runs.setRack {v : Bench} (h : Runs v) (n : Nat) (r : Rack) : Runs (v.setRack n r) := ⟨h.cur, h.status⟩

theorem Runs.pend {v : Bench} (h : Runs v) (i : Nat) : Runs (pend v i) := ⟨h.cur, h.status⟩

theorem State.bench_modRack_same (s : State) (b r : Nat) (f : Rack → Rack) :
    (s.modRack b r f).bench b = (s.bench b).setRack r (f ((s.bench b).rack r)) := State.bench_modBench_same ..

theorem State.isRt_modRack (s : State) (b r : Nat) (f : Rack → Rack) : (s.modRack b r f).isRt b = s.isRt b := by
  have hl : ((s.modRack b r f).bench b).leaving = (s.bench b).leaving := by rw [State.bench_modRack_same]; rfl
  have ha : (s.modRack b r f).actsFor b = s.actsFor b := by
    unfold State.actsFor
    rw [hl]
    rfl
  unfold State.isRt
  rw [ha]
  rfl

/-- From `v` to `w` a rack operation has left rack `r` as `rack`, and the running context, the drawer and the other racks as they
were. -/
structure RackStep (v w : Bench) (r : Nat) (rack : Rack) : Prop where
  cc : w.cc = v.cc
  drawer : w.drawer = v.drawer
  same : w.rack r = rack
  others : ∀ q, q ≠ r → w.rack q = v.rack q

theorem rackStep_setRack (v : Bench) (r : Nat) (k : Rack) : RackStep v (v.setRack r k) r k where
  cc := rfl
  drawer := rfl
  same := Bench.rack_setRack_same ..
  others q hq := (Bench.rack_setRack v r q k).trans (if_neg hq)

theorem RackStep.trans {u v w : Bench} {r : Nat} {k l : Rack} (h : RackStep u v r k) (g : RackStep v w r l) : RackStep u w r l where
  cc := g.cc.trans h.cc
  drawer := g.drawer.trans h.drawer
  same := g.same
  others q hq := (g.others q hq).trans (h.others q hq)

theorem RackStep.pend {v w : Bench} {r : Nat} {k : Rack} (h : RackStep v w r k) (i : Nat) : RackStep v (pend w i) r k :=
  ⟨h.cc, h.drawer, h.same, h.others⟩

/-- Contexts wake after a rack has changed. -/
theorem RackStep.wake {v w : Bench} {r : Nat} {k : Rack} (h : RackStep v w r k) (hw : Runs w) (p : Await → Bool) :
    RackStep v (w.wake p) r k where
  cc := (keepsRunning_wake hw p).cc.trans h.cc
  drawer := (wake_drawer hw p).trans h.drawer
  same := (wake_rack hw p r).trans h.same
  others q hq := (wake_rack hw p q).trans (h.others q hq)

/-- A rack with every committed slot published (R293). -/
def published (k : Rack) : Rack := { k with pub := k.cmt }

theorem published_of_pub_eq_cmt {k : Rack} (h : k.pub = k.cmt) : published k = k :=
  congrArg (fun x => { k with pub := x }) h.symm

/-- A rack whose oldest reserved slot has been committed (R292). -/
def committed (k : Rack) (poison own : Bool) : Rack :=
  { k with
    cmt := k.cmt + 1
    poison := tset false k.poison (k.idx k.cmt.toNat) poison
    own := if own then k.own ++ [k.cmt.toNat] else k.own }

/-- A rack after its oldest reserved slot is committed without poison by its bench: in a throughput partition (`rt` false) it is
published at once (R61, R293). -/
def afterCommit (k : Rack) (rt : Bool) : Rack := if rt then committed k false true else published (committed k false true)

theorem afterCommit_counters (k : Rack) (rt : Bool) :
    (afterCommit k rt).cmt = k.cmt + 1 ∧ (afterCommit k rt).pub = (if rt then k.pub else k.cmt + 1) ∧
    (afterCommit k rt).res = k.res ∧ (afterCommit k rt).acq = k.acq ∧ (afterCommit k rt).rel = k.rel := by
  cases rt <;> exact ⟨rfl, rfl, rfl, rfl, rfl⟩

theorem afterCommit_poison (k : Rack) (rt : Bool) : tget false (afterCommit k rt).poison (k.idx k.cmt.toNat) = false := by
  cases rt <;> exact tget_tset_same false k.poison (k.idx k.cmt.toNat) false

theorem State.commitSlot_eq (s : State) (b r : Nat) (poison own : Bool) : s.commitSlot b r poison own =
    let t := s.modRack b r fun k => committed k poison own
    if s.isRt b then t else t.publish b r := by
  unfold State.commitSlot
  simp only [State.isRt_modRack]
  rfl

theorem State.publish_rackStep (s : State) (b r : Nat) (h : Runs (s.bench b)) :
    RackStep (s.bench b) ((s.publish b r).bench b) r (published ((s.bench b).rack r)) := by
  have put := rackStep_setRack (s.bench b) r (published ((s.bench b).rack r))
  unfold State.publish
  simp only
  split
  · next hp => exact ⟨rfl, rfl, (published_of_pub_eq_cmt hp).symm, fun _ _ => rfl⟩
  · split
    · rw [State.bench_modBench_same, State.bench_setPend_same, State.bench_modRack_same]
      exact (put.pend _).wake ((h.setRack ..).pend _) _
    · rw [State.bench_modRack_same]
      exact put

/-- A publication that advances PUB for the bench as consumer sets JIPEND.RACKn (R293). -/
theorem State.publish_pends (s : State) (b r : Nat) (h : Runs (s.bench b)) (hr : r < 4) (hc : ((s.bench b).rack r).cons = 0)
    (hp : ((s.bench b).rack r).pub ≠ ((s.bench b).rack r).cmt) : ((s.publish b r).bench b).jipend.getLsbD (2 + r) = true := by
  unfold State.publish
  simp only
  rw [if_neg hp, if_pos hc, State.bench_modBench_same, State.bench_setPend_same, State.bench_modRack_same,
    wake_jipend ((h.setRack ..).pend _)]
  have hbit : 2 + r < 32 := by omega
  rw [pend, BitVec.getLsbD_or, w32, BitVec.getLsbD_ofNat, Nat.testBit_two_pow_self, decide_eq_true hbit]
  simp

theorem State.commitSlot_rackStep (s : State) (b r : Nat) (h : Runs (s.bench b)) :
    RackStep (s.bench b) ((s.commitSlot b r false true).bench b) r (afterCommit ((s.bench b).rack r) (s.isRt b)) := by
  have put := rackStep_setRack (s.bench b) r (committed ((s.bench b).rack r) false true)
  rw [State.commitSlot_eq]
  cases s.isRt b with
  | true => exact (State.bench_modRack_same s b r fun k => committed k false true) ▸ put
  | false =>
    have pub := State.publish_rackStep (s.modRack b r fun k => committed k false true) b r (by rw [State.bench_modRack_same]; exact h.setRack ..)
    rw [State.bench_modRack_same, Bench.rack_setRack_same] at pub
    exact put.trans pub

/-- In a throughput partition a commit that advances PUB for the bench as consumer sets JIPEND.RACKn (R293). -/
theorem State.commitSlot_pends (s : State) (b r : Nat) (poison own : Bool) (h : Runs (s.bench b)) (hr : r < 4) (hrt : s.isRt b = false)
    (hc : ((s.bench b).rack r).cons = 0) (hp : ((s.bench b).rack r).pub ≠ ((s.bench b).rack r).cmt + 1) :
    ((s.commitSlot b r poison own).bench b).jipend.getLsbD (2 + r) = true := by
  rw [State.commitSlot_eq, hrt]
  refine State.publish_pends _ b r ?_ hr ?_ ?_ <;> rw [State.bench_modRack_same]
  · exact h.setRack ..
  · rw [Bench.rack_setRack_same]; exact hc
  · rw [Bench.rack_setRack_same]; exact hp

theorem State.releaseSlot_rackStep (s : State) (b r : Nat) (h : Runs (s.bench b)) :
    RackStep (s.bench b) ((s.releaseSlot b r).bench b) r { (s.bench b).rack r with rel := ((s.bench b).rack r).rel + 1 } := by
  unfold State.releaseSlot
  rw [State.bench_modBench_same, State.bench_modRack_same]
  exact (rackStep_setRack ..).wake (h.setRack ..) _

/-- A poison flag reads true where the table lists it true. -/
theorem tget_false_iff_find? (t : Tab Bool) (k : Nat) : tget false t k = true ↔ (t.find? fun e => e.1 == k).map (·.2) = some true := by
  induction t with
  | nil => simp [tget]
  | cons e t ih =>
    obtain ⟨i, v⟩ := e
    by_cases hi : i = k
    · simp [tget, hi]
    · simp [tget, hi, ih]

theorem b2n_tget_false (t : Tab Bool) (k : Nat) :
    b2n (tget false t k) = if (t.find? fun e => e.1 == k).map (·.2) = some true then 1 else 0 := by
  split
  · next h => rw [(tget_false_iff_find? t k).2 h]; rfl
  · next h => rw [Bool.eq_false_iff.2 fun e => h ((tget_false_iff_find? t k).1 e)]; rfl

theorem Rack.ready_eq_zero_iff (r : Rack) : r.ready = 0 ↔ r.pub = r.acq := by
  unfold Rack.ready
  bv_omega

/-! ### The instructions -/

/-- A rack is disabled, or its producer or consumer is not the bench. -/
theorem rack_refuses_iff (enable : Bool) (who : BitVec 2) : (!enable || who != 0) = true ↔ ¬ (enable = true ∧ who = 0) := by
  cases enable <;> simp

theorem State.finish_ite (u : State) (b : Nat) (c : Prop) [Decidable c] (x y : Res) :
    u.finish b (if c then x else y) = if c then u.finish b x else u.finish b y := apply_ite ..

section
variable {s : State} {b : Bench7} {rd : Reg} {rack : BitVec 2}

theorem exec_rres (h : s.issues b.toNat .plain [rd] true = true) : exec (.rres b rd rack) s =
    let u := s.atIssue b.toNat true
    let r := (u.bench b.toNat).rack rack.toNat
    .next (if !r.enable || r.prod != 0 then u.raise b.toNat exILLEGAL none
      else if r.count ≤ r.inUse then u.lateTask b.toNat (.freeSlot rack.toNat)
      else u.retiresFrom ((u.modRack b.toNat rack.toNat fun r => { r with res := r.res + 1 }).modCc b.toNat fun c =>
        c.setReg rd (w32 (r.addr r.res.toNat))) b.toNat) := by
  show Host.Outcome.next (issue b .plain always [rd] _ s) = _
  rw [issue_eq (retire := always) h]
  simp only [State.finish_ite]
  rfl

theorem exec_racq (h : s.issues b.toNat .plain [rd] true = true) : exec (.racq b rd rack) s =
    let u := s.atIssue b.toNat true
    let r := (u.bench b.toNat).rack rack.toNat
    .next (if !r.enable || r.cons != 0 then u.raise b.toNat exILLEGAL none
      else if r.ready = 0 then u.lateTask b.toNat (.published rack.toNat)
      else u.retiresFrom (((u.modRack b.toNat rack.toNat fun r => { r with acq := r.acq + 1 }).modBench b.toNat fun v =>
        v.see (r.addr r.acq.toNat) (2 ^ r.slotlog)).modCc b.toNat fun c =>
          c.setReg rd (w32 (r.addr r.acq.toNat + b2n (tget false r.poison (r.idx r.acq.toNat))))) b.toNat) := by
  show Host.Outcome.next (issue b .plain always [rd] _ s) = _
  rw [issue_eq (retire := always) h]
  simp only [State.finish_ite]
  rfl

theorem exec_rcmt (h : s.issues b.toNat .plain [] true = true) : exec (.rcmt b rack) s =
    let u := s.atIssue b.toNat true
    let r := (u.bench b.toNat).rack rack.toNat
    .next (if !r.enable || r.prod != 0 || r.cmt == r.res then u.raise b.toNat exILLEGAL none
      else u.retiresFrom (u.commitSlot b.toNat rack.toNat false true) b.toNat) := by
  show Host.Outcome.next (issue b .plain always [] _ s) = _
  rw [issue_eq (retire := always) h]
  simp only [State.finish_ite]
  rfl

theorem exec_rrel (h : s.issues b.toNat .plain [] true = true) : exec (.rrel b rack) s =
    let u := s.atIssue b.toNat true
    let r := (u.bench b.toNat).rack rack.toNat
    .next (if !r.enable || r.cons != 0 || r.rel == r.acq then u.raise b.toNat exILLEGAL none
      else u.retiresFrom (u.releaseSlot b.toNat rack.toNat) b.toNat) := by
  show Host.Outcome.next (issue b .plain always [] _ s) = _
  rw [issue_eq (retire := always) h]
  simp only [State.finish_ite]
  rfl

/-- A rack operation that retires, seen from before its instruction issued. -/
theorem rackStep_retires {t : State} {k : Rack} (h : s.issues b.toNat .plain [] true = true)
    (step : RackStep ((s.atIssue b.toNat true).bench b.toNat) (t.bench b.toNat) rack.toNat k) :
    let w := (s.atIssue b.toNat true).retiresFrom t b.toNat
    (w.bench b.toNat).rack rack.toNat = k ∧ (∀ q, (w.cc b.toNat).reg q = (s.cc b.toNat).reg q) ∧
    (∀ q, q ≠ rack.toNat → (w.bench b.toNat).rack q = (s.bench b.toNat).rack q) ∧ (w.bench b.toNat).drawer = (s.bench b.toNat).drawer := by
  have hcc : t.cc b.toNat = s.cc b.toNat := step.cc.trans (State.atIssue_cc h)
  refine ⟨?_, fun q => ?_, fun q hq => ?_, ?_⟩
  · rw [State.retiresFrom_rack]; exact step.same
  · rw [State.retiresFrom_reg, hcc]
  · rw [State.retiresFrom_rack, step.others q hq, State.atIssue_rack h]
  · rw [State.retiresFrom_drawer, step.drawer, State.atIssue_drawer h]

end

/-- Settles O30: each instruction from what it does at issue, RCMT and RREL through what their rack operation leaves of the bench. -/
theorem rackInstructions : Obligations.RackInstructions := by
  intro s b rd rack n k u r size slot produces consumes poison ill
  have hprod : (!r.enable || r.prod != 0) = true ↔ ¬ produces := rack_refuses_iff ..
  have hcons : (!r.enable || r.cons != 0) = true ↔ ¬ consumes := rack_refuses_iff ..
  refine ⟨fun h => ?_, fun h => ?_⟩
  · have rres := exec_rres (rack := rack) h
    have racq := exec_racq (rack := rack) h
    refine ⟨fun hp => ?_, fun hp hfree => ?_, fun hp hfull => ?_, fun hc => ?_, fun hc hpub => ?_, fun hc hpub => ?_⟩
    · exact rres.trans (congrArg _ (if_pos (hprod.2 hp)))
    · exact rres.trans (congrArg _ ((if_neg fun e => hprod.1 e hp).trans (if_neg (Nat.not_le.2 hfree))))
    · exact rres.trans (congrArg _ ((if_neg fun e => hprod.1 e hp).trans (if_pos hfull)))
    · exact racq.trans (congrArg _ (if_pos (hcons.2 hc)))
    · have hready : r.ready ≠ 0 := fun e => hpub ((Rack.ready_eq_zero_iff r).1 e)
      have hflag : b2n (tget false r.poison (r.idx r.acq.toNat)) = if poison then 1 else 0 := b2n_tget_false ..
      rw [← hflag]
      exact racq.trans (congrArg _ ((if_neg fun e => hcons.1 e hc).trans (if_neg hready)))
    · exact racq.trans (congrArg _ ((if_neg fun e => hcons.1 e hc).trans (if_pos ((Rack.ready_eq_zero_iff r).2 hpub))))
  · have rcmt := exec_rcmt (rack := rack) h
    have rrel := exec_rrel (rack := rack) h
    have hruns : Runs (u.bench n) := State.atIssue_runs h
    have hcmt : (!r.enable || r.prod != 0 || r.cmt == r.res) = true ↔ ¬ produces ∨ r.cmt = r.res := by
      rw [Bool.or_eq_true, hprod, beq_iff_eq]
    have hrel : (!r.enable || r.cons != 0 || r.rel == r.acq) = true ↔ ¬ consumes ∨ r.rel = r.acq := by
      rw [Bool.or_eq_true, hcons, beq_iff_eq]
    refine ⟨fun hp => ?_, fun hp hres => ?_, fun hc => ?_, fun hc hacq => ?_⟩
    · exact rcmt.trans (congrArg _ (if_pos (hcmt.2 hp)))
    · obtain ⟨hrack, hregs, hothers, hdrawer⟩ := rackStep_retires h (State.commitSlot_rackStep u n k hruns)
      obtain ⟨hcmt', hpub', hres', hacq', hrel'⟩ := afterCommit_counters r (u.isRt n)
      refine ⟨_, rcmt.trans (congrArg _ (if_neg fun e => (hcmt.1 e).elim (· hp) hres)), ?_⟩
      rw [hrack]
      refine ⟨hcmt', hpub', hres', hacq', hrel', afterCommit_poison .., hregs, fun hrt hcons hpub => ?_, hothers, hdrawer⟩
      rw [State.retiresFrom_jipend]
      exact State.commitSlot_pends u n k false true hruns rack.isLt hrt hcons hpub
    · exact rrel.trans (congrArg _ (if_pos (hrel.2 hc)))
    · exact ⟨_, rrel.trans (congrArg _ (if_neg fun e => (hrel.1 e).elim (· hc) hacq)),
        rackStep_retires h (State.releaseSlot_rackStep u n k hruns)⟩

end Sys2Proof.RackProofs
end

section
/-! The answers of the host (R453, R485): where the tag of a refused read does not stay free. -/

namespace Sys2Proof.HostAnswerProofs
open Sys2Proof Sys2Proof.Machine

/-- The host read that transfer 2 of bench 3 waits for. -/
def waitingRun : Run := { place := .host 0x5000, n := 2, sent := true, pa := 0x9000 }

/-- The transfer: 2 bytes of host memory to its drawer. -/
def waitingXfer : Xfer := { tag := 2, order := 0, reads := [waitingRun], writes := [{ place := .drawer 3 0x80, n := 2 }] }

/-- What the packets of the run name. -/
def waitingAsk : Ask := { who := .bench 3, tag := 2 }

/-- Its request, outstanding on module 0 under tag 7. -/
def waitingReq : HostReq := { tag := 7, use := .run waitingAsk, part := 0, pa := 0x9000, len := 2, write := false, sent := true }

/-- A running device in which that read is all that is outstanding. Module 0 has given out its tags in turn and comes to 7 next;
partition 0 has no interrupt cause masked, and its interrupt address is translated without a walk. -/
def tagComesRound : State :=
  { dev := { phase := .running }
    tens := [(0, { xen := true, irqMask := 0 })]
    benches := [(3, { xfers := [waitingXfer] })]
    hpps := [(0, { up := true, nextTag := 7, reqs := [waitingReq]
                   xlat := [(0, { part := 0, va := 0, big := true, base := 0, r := true, w := true, x := false })] })] }

/-- The refusal frees tag 7 and sets the FENCE cause, whose interrupt message leaves in the same step and takes the freed tag
(R454, R479, R485). -/
theorem refused_read_tag_taken_by_interrupt : ∃ t, exec (.rdData 0 7 true false []) tagComesRound = .next t ∧
    ∃ r ∈ (t.hpp 0).reqs, r.use = .irq 0 ∧ r.sent = true ∧ r.tag = 7 :=
  ⟨_, rfl, by decide +kernel⟩

/-- Refutes O47: after a refused RD_DATA the module can hold a request under that tag, the interrupt message of the refusal itself. -/
theorem not_hostAnswers : ¬ Obligations.HostAnswers := by
  intro h
  obtain ⟨answers, -⟩ := h tagComesRound 0 7 false [] false 0 (by decide) (by decide)
  obtain ⟨-, onRefusal, -⟩ := answers waitingReq waitingAsk (by decide) rfl (by decide)
  obtain ⟨t, hexec, gone, -⟩ := onRefusal rfl 3 waitingXfer waitingRun (by decide)
  obtain ⟨t', hexec', r, hmem, -, hsent, htag⟩ := refused_read_tag_taken_by_interrupt
  obtain rfl : t = t' := Host.Outcome.next.inj (hexec.symm.trans hexec')
  exact gone r hmem hsent htag

end Sys2Proof.HostAnswerProofs
end
